-- ==== Sys2Proof/Word.lean ====
section
/-!
DEFINITION. The words of the block (bytes, the formats of what it decodes) and its vocabulary: the fixed sets of
names that 30_encoding.md and 10_state.md give (results, causes, statuses, sequencer states, trace events).
-/

namespace Sys2Proof

/-- A byte is 8 bits (R13). -/
abbrev Byte := BitVec 8

/-- The formats an encoded instruction comes in: HDR16 (the whole 164-byte packet, R100, R101), CMD3 (R114),
TRACE5 (an operation named by its trace code, R117), PVRES9 (R112), FARES4 (R113), and the power-on event, which has
no code (R310). -/
inductive Format
  | hdr16 | cmd3 | op5 | pvres9 | fares4 | powerOn
deriving DecidableEq, Repr

/-- One encoded instruction: its format and its bytes, the byte received first coming first (R14). -/
structure Code where
  fmt : Format
  bytes : List Byte
deriving DecidableEq, Repr

/-- The byte-addressed memories of R60. -/
inductive ByteSpace
  | arena | segbuf | framebuf
deriving DecidableEq, Repr

/-- A packet descriptor `(chunk, slot)` (R111). -/
structure Desc where
  chunk : Nat
  slot : Nat
deriving DecidableEq, Repr, Inhabited

/-- The reason of a `Fatal` result of PV (R112). -/
inductive PvReason
  | errorFlag | invalidPacketNumber
deriving DecidableEq, Repr

/-- The result of PV.VALIDATE (R112). -/
inductive PvRes
  | sequenceNumber (n : BitVec 6)
  | discard
  | fatal (r : PvReason)
deriving DecidableEq, Repr

/-- The detail of a `SequenceError` of FA (R113). -/
inductive FaDetail
  | outOfOrderPacket | invalidSegmentOrdinal | outOfOrderSegment
deriving DecidableEq, Repr

/-- The result of FA.ACCEPT (R113). -/
inductive FaRes
  | incomplete
  | complete
  | sequenceError (d : FaDetail)
deriving DecidableEq, Repr

/-- The causes of a resynchronisation (R116). -/
inductive Cause
  | none | errorFlag | invalidPacketNumber | outOfOrderPacket | invalidSegmentOrdinal | outOfOrderSegment
  | pipelineStopped
deriving DecidableEq, Repr

/-- The status codes, the answers to commands (R115). -/
inductive Status
  | ok | errTransport | errTimeout | errReopen | errUsage
deriving DecidableEq, Repr

/-- The controller's sequencer states (R32): `S_CLOSED`, `S_OP_CONN`, `S_OPEN`, `S_RETR`, `S_RS_JOIN`,
`S_RS_BACKOFF`, `S_RS_CONN`, `S_CL_JOIN`. -/
inductive ScState
  | closed | opConn | opened | retr | rsJoin | rsBackoff | rsConn | clJoin
deriving DecidableEq, Repr

/-- The producer's sequencer states (R30): `P_IDLE`, `P_ACQ`, `P_XFER`, `P_SPLIT`, `P_DONE_CANCEL`, `P_DONE_FAIL`. -/
inductive PState
  | idle | acq | xfer | split | doneCancel | doneFail
deriving DecidableEq, Repr

/-- The command in progress (R33). -/
inductive Cmd
  | none | opening | closing | retrieveFrame | snapshot
deriving DecidableEq, Repr

/-- The part of a SNAPSHOT that is running (R33): `SN_OPEN`, `SN_RETR`, `SN_CLOSE`. -/
inductive SnapPhase
  | opening | retr | closing
deriving DecidableEq, Repr

/-- Why the producer terminated: the argument of `EV_SP_EXIT` (R117), 0 cancel, 1 transfer failure. -/
inductive ExitReason
  | cancel | transferFailure
deriving DecidableEq, Repr

/-- Which branch SC.CONSUME took: the argument of `EV_CONSUME` (R117). -/
inductive Branch
  | timeout | pipelineStopped | packet
deriving DecidableEq, Repr

/-- The trace events (R117), one constructor per code that is emitted. -/
inductive Event
  | pfDrop (chunk slot : Nat)
  | validate (r : PvRes)
  | accept (r : FaRes)
  | faReset
  | writeImage
  | nextChunk (chunk : Nat)
  | xfer (chunk : Nat) (ok : Bool)
  | splitDone (chunk : Nat)
  | enq (chunk slot : Nat)
  | deq (chunk slot : Nat)
  | flush
  | spStart
  | spCancel
  | spExit (r : ExitReason)
  | openCmd (st : Status)
  | closeCmd (st : Status)
  | retrieveCmd (st : Status)
  | snapshotCmd (st : Status)
  | resync (c : Cause)
  | resyncEnd (ok : Bool)
  | consume (b : Branch)
  | dlFire
  | boEnd
  | badCmd (code : BitVec 3)
deriving DecidableEq, Repr

/-- The arguments of `connect(speed, mode, bits)`, passed through unchanged (R283). -/
structure ConnectArgs where
  speed : Nat
  mode : Nat
  bits : Nat
deriving DecidableEq, Repr, Inhabited

/-- The requests the block makes of the transport (R283). -/
inductive TrRequest
  | connect (a : ConnectArgs)
  | transfer (nbytes : Nat)
  | close
deriving DecidableEq, Repr

/-- An answer of the transport: whether the request succeeded and, for a transfer, the bytes received (R191, R283). -/
structure TrAnswer where
  ok : Bool
  data : List Byte
deriving DecidableEq, Repr

/-- What the host writes other than commands: the four configuration registers (R36) and its own memory DEST (R43). -/
inductive HostWrite
  | padMask (v : Byte)
  | padPattern (v : Byte)
  | deadline (ms : Nat)
  | backoff (ms : Nat)
  | dest (a : Nat) (v : BitVec 16)
deriving DecidableEq, Repr

/-- What one step of some agent can be (R9): the host presents a command code or writes, the producer or the consumer
performs the step its sequencer stands at, a timer event occurs, or power-on reset happens. -/
inductive AgentChoice
  | command (code : BitVec 3)
  | write (w : HostWrite)
  | producer
  | consumer
  | fire
  | backoffEnd
  | powerOn
deriving DecidableEq, Repr, Inhabited

/-- One line of the schedule (R120): an encoded instruction, a step of the producer or the consumer chosen by its
sequencer's position, or a write of the host. -/
inductive Line
  | code (c : Code)
  | producer
  | consumer
  | write (w : HostWrite)
deriving DecidableEq, Repr

end Sys2Proof
end

