-- ==== Sys2Proof/Config.lean ====
section
/-!
DEFINITION. What an implementation fixes and what the spec leaves open: the constants of R6, the build parameters of
R7, and the free values (opaque constants: nothing in Lean can evaluate them).
-/

namespace Sys2Proof

/-- The build parameters of R7 and R8, with the arguments of `connect` (R283). `P`, `M`, `N` and `QCAP` are integers not
below 1, so each is held as its predecessor; `Params.p`, `.m`, `.n` and `.qcap` are the parameters themselves. `padMask`
and `padPattern` are `PAD_MASK` and `PAD_PATTERN`, the values the two registers have after reset (R36, R44). -/
structure Params where
  pPred : Nat
  mPred : Nat
  nPred : Nat
  qcapPred : Nat
  trace : Bool
  padMask : Byte
  padPattern : Byte
  connectArgs : ConnectArgs
deriving DecidableEq, Repr, Inhabited

/-- `P`, the packets of one transfer (R7). -/
def Params.p (c : Params) : Nat := c.pPred + 1
/-- `M`, the bound on packets of one frame with discards, which the sizing policy uses (R7, R200). -/
def Params.m (c : Params) : Nat := c.mPred + 1
/-- `N`, the chunks of the arena (R7). -/
def Params.n (c : Params) : Nat := c.nPred + 1
/-- `QCAP`, the capacity of FQ (R7). -/
def Params.qcap (c : Params) : Nat := c.qcapPred + 1

namespace Config

/-- `PKT_BYTES` (R6). -/
abbrev pktBytes : Nat := 164
/-- `PAY_BYTES` (R6). -/
abbrev payBytes : Nat := 160
/-- `PIX_PER_PKT` (R6). -/
abbrev pixPerPkt : Nat := 80
/-- `MAX_PN` (R6). -/
abbrev maxPn : Nat := 59
/-- `SEG_PN` (R6). -/
abbrev segPn : Nat := 20
/-- `FRAME_SLOTS` (R6). -/
abbrev frameSlots : Nat := 240
/-- SEGBUF is 60 slots of 160 bytes (R23). -/
abbrev segBytes : Nat := 9600
/-- FRAMEBUF is 240 slots of 160 bytes (R24). -/
abbrev frameBytes : Nat := 38400
/-- DEST is 160 × 120 words (R39). -/
abbrev destWords : Nat := 19200

/-- The default of the build parameter `PAD_MASK` (R7; log 5). -/
def padMaskDefault : Byte := 0x0F
/-- The default of the build parameter `PAD_PATTERN` (R7; log 5). -/
def padPatternDefault : Byte := 0x0F
/-- The reference deadline, 10 seconds, in milliseconds (R36; DESIGN CHOICE of the unit, log 6). -/
def deadlineDefault : Nat := 10000
/-- The reference backoff, 300 ms (R36; log 6). -/
def backoffDefault : Nat := 300

/-- The parameters R7 leaves `OPEN`, of which nothing is known (log 3). Its padding fields are not used. -/
opaque openParams : Params
/-- The build `State.reset` stands for: the padding parameters at R7's defaults, the others open (logs 3, 5). Any other
build is another `Params`, and its reset state is `State.resetOf`. -/
def build : Params := { openParams with padMask := padMaskDefault, padPattern := padPatternDefault }
/-- The byte a memory holds at an address after a power-on reset (R311), one draw per reset (log 4). -/
opaque powerOnByte : (epoch : Nat) → (space : ByteSpace) → (addr : Nat) → Byte
/-- The descriptor a QSTORE entry holds after a power-on reset (R311; log 4). -/
opaque powerOnDesc : (epoch : Nat) → (entry : Nat) → Desc
/-- The word the host's DEST holds where neither the host nor the block has written (R39; log 4). -/
opaque hostWord : (addr : Nat) → BitVec 16
/-- Whether the transport answers a request with success (R283; log 8). -/
opaque transportOk : (draw : Nat) → Bool
/-- The bytes a successful transfer delivers (R191; log 8). -/
opaque rxByte : (draw : Nat) → (i : Nat) → Byte
/-- The bytes a chunk holds after a failed transfer (R191; log 9). -/
opaque failedByte : (draw : Nat) → (i : Nat) → Byte
/-- The agent that steps next when the schedule names none (R10; log 1). -/
opaque agentChoice : (draw : Nat) → AgentChoice

end Config

end Sys2Proof
end

