-- ==== Sys2Proof/Syntax.lean ====
section
/-!
DEFINITION. The instructions: one constructor per mnemonic of spec/opcode_table.json. Packet classes carry the fields
of their packet, operations the operands their rule names; what an operation finds in the state is no operand.
-/

namespace Sys2Proof

/-- The instructions of the block. In the packet classes `t` is header bits 14:12 (ignored, R110), `crc` the CRC field
(ignored, R102) and `pay` the 160 payload bytes. -/
inductive Instr
  /-- PAD: a padding packet (R140). -/
  | pad (hdr : BitVec 16) (crc : BitVec 16) (pay : List Byte)
  /-- FATAL: header bit 15 set (R142). -/
  | fatal (t : BitVec 3) (pn : BitVec 12) (crc : BitVec 16) (pay : List Byte)
  /-- BADNUM: a packet number above 59 (R143). -/
  | badnum (t : BitVec 3) (pn : BitVec 12) (crc : BitVec 16) (pay : List Byte)
  /-- BLANK: packet 0 with a zero first pixel (R144). -/
  | blank (t : BitVec 3) (crc : BitVec 16) (pay : List Byte)
  /-- DATA0: packet 0 (R145, R165). -/
  | data0 (t : BitVec 3) (crc : BitVec 16) (pay : List Byte)
  /-- DATA20: packet 20, which carries the segment ordinal (R145, R163). -/
  | data20 (t : BitVec 3) (crc : BitVec 16) (pay : List Byte)
  /-- DATA59: packet 59, which ends a pass (R145, R164). -/
  | data59 (t : BitVec 3) (crc : BitVec 16) (pay : List Byte)
  /-- DATA: any other legal packet number (R145, R165). -/
  | data (t : BitVec 3) (n : BitVec 6) (crc : BitVec 16) (pay : List Byte)
  /-- OPEN (R114, R231). -/
  | cmdOpen
  /-- CLOSE (R114, R232). -/
  | cmdClose
  /-- RETRIEVE_FRAME (R114, R233); its operand is the host's one DEST (DESIGN CHOICE, log 28). -/
  | cmdRetrieveFrame
  /-- SNAPSHOT (R114, R236); its operand is the host's one DEST (DESIGN CHOICE, log 28). -/
  | cmdSnapshot
  /-- RESERVED_0 (R114, R241). -/
  | reserved0
  /-- RESERVED_5 (R114, R241). -/
  | reserved5
  /-- RESERVED_6 (R114, R241). -/
  | reserved6
  /-- RESERVED_7 (R114, R241). -/
  | reserved7
  /-- PF.MATCH on the first byte of a slice (R140). -/
  | pfMatch (b0 : Byte)
  /-- PV.VALIDATE on the 164 bytes of a packet (R141). -/
  | pvValidate (pkt : List Byte)
  /-- FA.ACCEPT of a packet number and a payload (R160). -/
  | faAccept (pn : BitVec 6) (pay : List Byte)
  /-- FA.RESET (R168). -/
  | faReset
  /-- FA.WRITE_IMAGE (R169). -/
  | faWriteImage
  /-- RB.NEXT_CHUNK, the producer's step in `P_ACQ` (R190, R198). -/
  | rbNextChunk
  /-- SP.TRANSFER (R191). -/
  | spTransfer
  /-- SP.SPLIT (R192). -/
  | spSplit
  /-- FQ.ENQ of a descriptor (R193). -/
  | fqEnq (chunk : BitVec 32) (slot : BitVec 32)
  /-- FQ.DEQ (R194). -/
  | fqDeq
  /-- FQ.FLUSH (R195). -/
  | fqFlush
  /-- SP.START (R196). -/
  | spStart
  /-- SP.CANCEL (R197). -/
  | spCancel
  /-- SP.EXIT: the producer's terminating step (R198). -/
  | spExit (reason : ExitReason)
  /-- SC.OPEN: the controller's step of an OPEN in progress (R231). -/
  | scOpen
  /-- SC.CLOSE: the controller's closing step (R232). -/
  | scClose
  /-- SC.RETRIEVE_FRAME: the controller's next step of a RETRIEVE_FRAME in progress (R233). -/
  | scRetrieveFrame
  /-- SC.SNAPSHOT: the controller's next step of a SNAPSHOT in progress (R236). -/
  | scSnapshot
  /-- SC.RESYNC: with a cause, its entry; with `Cause.none`, the next step of the one in progress (R235). -/
  | scResync (cause : Cause)
  /-- SC.CONSUME (R234). -/
  | scConsume
  /-- TM.FIRE (R237). -/
  | tmFire
  /-- TM.BACKOFF_END (R238). -/
  | tmBackoffEnd
  /-- SC.REJECT of a command code (R241). -/
  | scReject (code : BitVec 3)
  /-- RESET, the power-on reset (R310). -/
  | reset
  /-- PVRES.SequenceNumber: the controller's treatment of that result of PV (R112, R234); `n` above 59 as log 27 says. -/
  | pvresSequenceNumber (n : BitVec 6) (pay : List Byte)
  /-- PVRES.Discard (R112, R234). -/
  | pvresDiscard
  /-- PVRES.Fatal.ERROR_FLAG (R112, R234). -/
  | pvresErrorFlag
  /-- PVRES.Fatal.INVALID_PACKET_NUMBER (R112, R234). -/
  | pvresInvalidPacketNumber
  /-- FARES.Incomplete: the controller's treatment of that result of FA (R113, R234). -/
  | faresIncomplete
  /-- FARES.Complete (R113, R234). -/
  | faresComplete
  /-- FARES.SequenceError.OUT_OF_ORDER_PACKET (R113, R234). -/
  | faresOutOfOrderPacket
  /-- FARES.SequenceError.INVALID_SEGMENT_ORDINAL (R113, R234). -/
  | faresInvalidSegmentOrdinal
  /-- FARES.SequenceError.OUT_OF_ORDER_SEGMENT (R113, R234). -/
  | faresOutOfOrderSegment
deriving DecidableEq, Repr

end Sys2Proof
end

