-- ==== Sys2Proof/Decode.lean ====
section
/-!
DEFINITION. Encodings (30_encoding.md): field extraction, the numeric codes, the decoder (total on any bytes, rejecting
by name), the encoder, and the opcode table's numbering of a word.
-/

namespace Sys2Proof

/-! ### Field extraction (R100 to R108) -/

/-- `a ∥ b` of two bytes, `a` the more significant (R13). -/
def be16 (a b : Byte) : BitVec 16 := a ++ b

/-- The bytes of a 16-bit word, the more significant first (R63). -/
def be16Bytes (w : BitVec 16) : List Byte := [w.extractLsb' 8 8, w.extractLsb' 0 8]

/-- A 32-bit operand from its four bytes, the most significant first (log 11). -/
def be32 (a b c d : Byte) : BitVec 32 := be16 a b ++ be16 c d

/-- The four bytes of a 32-bit operand (log 11). -/
def be32Bytes (w : BitVec 32) : List Byte := be16Bytes (w.extractLsb' 16 16) ++ be16Bytes (w.extractLsb' 0 16)

/-- Byte `i` of a packet or payload; every decoded packet has 164 bytes (R100), so the 0 stands for no byte of one. -/
def byteAt (bs : List Byte) (i : Nat) : Byte := bs.getD i 0

/-- `hdr(pkt) = pkt[0] ∥ pkt[1]` (R101). -/
def pktHdr (pkt : List Byte) : BitVec 16 := be16 (byteAt pkt 0) (byteAt pkt 1)

/-- `crc(pkt) = pkt[2] ∥ pkt[3]`, never examined (R102). -/
def pktCrc (pkt : List Byte) : BitVec 16 := be16 (byteAt pkt 2) (byteAt pkt 3)

/-- `pay(pkt)`, the bytes from offset 4 on (R100). -/
def pktPay (pkt : List Byte) : List Byte := pkt.drop 4

/-- `F`, header bit 15 (R101). -/
def hdrFatal (h : BitVec 16) : Bool := h.getLsbD 15

/-- `t`, header bits 14:12, ignored by every rule (R110). -/
def hdrT (h : BitVec 16) : BitVec 3 := h.extractLsb' 12 3

/-- `pn`, header bits 11:0 (R104). -/
def hdrPn (h : BitVec 16) : BitVec 12 := h.extractLsb' 0 12

/-- A header put together from its fields (R101). -/
def mkHdr (f : BitVec 1) (t : BitVec 3) (pn : BitVec 12) : BitVec 16 := f ++ t ++ pn

/-- `is_pad`: the masked comparison of the first byte with the pattern (R105). -/
def isPad (mask pattern b0 : Byte) : Bool := (b0 &&& mask) == (pattern &&& mask)

/-- Both payload-start bytes are zero: the payload half of `is_blank` (R106). -/
def payStartZero (pay : List Byte) : Bool := byteAt pay 0 == 0 && byteAt pay 1 == 0

/-- `ord(pay) = pay[0][7:4]` (R107). -/
def payOrd (pay : List Byte) : BitVec 4 := (byteAt pay 0).extractLsb' 4 4

/-- `pix(pay, j) = pay[2j] ∥ pay[2j + 1]` (R108). -/
def payPix (pay : List Byte) (j : Nat) : BitVec 16 := be16 (byteAt pay (2 * j)) (byteAt pay (2 * j + 1))

/-! ### Numeric codes (R111 to R119) -/

/-- `ceil(log2 n)` (R8). -/
def clog2 (n : Nat) : Nat := if n ≤ 1 then 0 else Nat.log2 (n - 1) + 1

/-- The width of a chunk index (R8). -/
def chunkBits (c : Params) : Nat := clog2 c.n
/-- The width of a slot index (R8). -/
def slotBits (c : Params) : Nat := clog2 c.p
/-- The width of a reference counter (R8). -/
def refcntBits (c : Params) : Nat := clog2 (c.p + 1)
/-- The width of the FIFO occupancy (R8). -/
def countBits (c : Params) : Nat := clog2 (c.qcap + 1)

/-- `CHUNK_BYTES = P * PKT_BYTES` (R8). -/
def chunkBytes (c : Params) : Nat := c.p * Config.pktBytes

/-- The sizing policy `N = ceil(M / P)` (R200, R202). -/
def sizedChunks (m p : Nat) : Nat := (m + p - 1) / p

/-- DESC: `chunk ∥ slot`, as a number (R111). -/
def descCode (c : Params) (d : Desc) : Nat := d.chunk * 2 ^ slotBits c + d.slot

/-- PVRES, `cls[1:0] ∥ reason ∥ n[5:0]` (R112). -/
def pvresCode : PvRes → BitVec 9
  | .sequenceNumber n => (0 : BitVec 3) ++ n
  | .discard => 0x080
  | .fatal .errorFlag => 0x100
  | .fatal .invalidPacketNumber => 0x140

/-- FARES, `res[1:0] ∥ detail[1:0]` (R113). -/
def faresCode : FaRes → BitVec 4
  | .incomplete => 0x0
  | .complete => 0x4
  | .sequenceError .outOfOrderPacket => 0x8
  | .sequenceError .invalidSegmentOrdinal => 0x9
  | .sequenceError .outOfOrderSegment => 0xA

/-- The status codes (R115). -/
def statusCode : Status → BitVec 3
  | .ok => 0
  | .errTransport => 1
  | .errTimeout => 2
  | .errReopen => 3
  | .errUsage => 4

/-- The cause codes (R116). -/
def causeCode : Cause → BitVec 3
  | .none => 0
  | .errorFlag => 1
  | .invalidPacketNumber => 2
  | .outOfOrderPacket => 3
  | .invalidSegmentOrdinal => 4
  | .outOfOrderSegment => 5
  | .pipelineStopped => 6

/-- The cause a code stands for; 7 is never produced (R116). -/
def causeOfCode (c : BitVec 3) : Option Cause :=
  match c.toNat with
  | 0 => some .none
  | 1 => some .errorFlag
  | 2 => some .invalidPacketNumber
  | 3 => some .outOfOrderPacket
  | 4 => some .invalidSegmentOrdinal
  | 5 => some .outOfOrderSegment
  | 6 => some .pipelineStopped
  | _ => none

/-- The cause of a `Fatal` result (R270). -/
def causeOfReason : PvReason → Cause
  | .errorFlag => .errorFlag
  | .invalidPacketNumber => .invalidPacketNumber

/-- The cause of a `SequenceError` result (R270). -/
def causeOfDetail : FaDetail → Cause
  | .outOfOrderPacket => .outOfOrderPacket
  | .invalidSegmentOrdinal => .invalidSegmentOrdinal
  | .outOfOrderSegment => .outOfOrderSegment

/-- The `sc_state` codes, as read from `STATE` (R119). -/
def scStateCode : ScState → BitVec 3
  | .closed => 0
  | .opConn => 1
  | .opened => 2
  | .retr => 3
  | .rsJoin => 4
  | .rsBackoff => 5
  | .rsConn => 6
  | .clJoin => 7

/-- The `p_state` codes (R119). -/
def pStateCode : PState → BitVec 3
  | .idle => 0
  | .acq => 1
  | .xfer => 2
  | .split => 3
  | .doneCancel => 4
  | .doneFail => 5

/-- The argument of `EV_SP_EXIT` (R117). -/
def exitCode : ExitReason → BitVec 1
  | .cancel => 0
  | .transferFailure => 1

/-- The argument of `EV_CONSUME` (R117). -/
def branchCode : Branch → BitVec 2
  | .timeout => 0
  | .pipelineStopped => 1
  | .packet => 2

/-- The trace event codes (R117). -/
def eventCode : Event → BitVec 5
  | .pfDrop _ _ => 0x01
  | .validate _ => 0x02
  | .accept _ => 0x03
  | .faReset => 0x04
  | .writeImage => 0x05
  | .nextChunk _ => 0x06
  | .xfer _ _ => 0x07
  | .splitDone _ => 0x08
  | .enq _ _ => 0x09
  | .deq _ _ => 0x0A
  | .flush => 0x0B
  | .spStart => 0x0C
  | .spCancel => 0x0D
  | .spExit _ => 0x0E
  | .openCmd _ => 0x10
  | .closeCmd _ => 0x11
  | .retrieveCmd _ => 0x12
  | .snapshotCmd _ => 0x13
  | .resync _ => 0x14
  | .resyncEnd _ => 0x15
  | .consume _ => 0x16
  | .dlFire => 0x17
  | .boEnd => 0x18
  | .badCmd _ => 0x19

/-- The arguments of a trace record in the order R117 lists them, each with its natural width in bits. -/
def eventArgs (c : Params) : Event → List (Nat × Nat)
  | .pfDrop ch sl => [(chunkBits c, ch), (slotBits c, sl)]
  | .validate r => [(9, (pvresCode r).toNat)]
  | .accept r => [(4, (faresCode r).toNat)]
  | .faReset => []
  | .writeImage => []
  | .nextChunk ch => [(chunkBits c, ch)]
  | .xfer ch ok => [(chunkBits c, ch), (1, ok.toNat)]
  | .splitDone ch => [(chunkBits c, ch)]
  | .enq ch sl => [(chunkBits c, ch), (slotBits c, sl)]
  | .deq ch sl => [(chunkBits c, ch), (slotBits c, sl)]
  | .flush => []
  | .spStart => []
  | .spCancel => []
  | .spExit r => [(1, (exitCode r).toNat)]
  | .openCmd st => [(3, (statusCode st).toNat)]
  | .closeCmd st => [(3, (statusCode st).toNat)]
  | .retrieveCmd st => [(3, (statusCode st).toNat)]
  | .snapshotCmd st => [(3, (statusCode st).toNat)]
  | .resync ca => [(3, (causeCode ca).toNat)]
  | .resyncEnd ok => [(1, ok.toNat)]
  | .consume b => [(2, (branchCode b).toNat)]
  | .dlFire => []
  | .boEnd => []
  | .badCmd code => [(3, code.toNat)]

/-! ### The decoder -/

/-- Why bytes are no encoding of an instruction. -/
inductive DecodeError
  /-- The format's length or the operation's operand length is another. -/
  | wrongLength
  /-- The command port is 3 bits wide (R114). -/
  | commandOutOfRange
  /-- The trace code names no operation of the opcode table (R117). -/
  | noSuchOperation
  /-- An operand is wider than its field. -/
  | operandOutOfRange
  /-- A PVRES or FARES pattern that is never produced (R112, R113). -/
  | reservedResult
deriving DecidableEq, Repr

/-- The packet classes PV tells apart, rows 2 to 8 of the decode table in priority order (R109, R141). -/
def decodePv (pkt : List Byte) : Instr :=
  let h := pktHdr pkt
  let t := hdrT h
  let pn := hdrPn h
  let crc := pktCrc pkt
  let pay := pktPay pkt
  if hdrFatal h then .fatal t pn crc pay
  else if Config.maxPn < pn.toNat then .badnum t pn crc pay
  else if pn = 0 then (if payStartZero pay then .blank t crc pay else .data0 t crc pay)
  else if pn = 20 then .data20 t crc pay
  else if pn = 59 then .data59 t crc pay
  else .data t (pn.setWidth 6) crc pay

/-- The whole decode table: row 1, the padding test of PF, and then the rows of PV (R109). -/
def decodePacket (mask pattern : Byte) (pkt : List Byte) : Instr :=
  if isPad mask pattern (byteAt pkt 0) then .pad (pktHdr pkt) (pktCrc pkt) (pktPay pkt) else decodePv pkt

/-- CMD3: the command codes (R114). -/
def decodeCmd (b : Byte) : Except DecodeError Instr :=
  match b.toNat with
  | 0 => .ok .reserved0
  | 1 => .ok .cmdOpen
  | 2 => .ok .cmdClose
  | 3 => .ok .cmdRetrieveFrame
  | 4 => .ok .cmdSnapshot
  | 5 => .ok .reserved5
  | 6 => .ok .reserved6
  | 7 => .ok .reserved7
  | _ => .error .commandOutOfRange

/-- The command a code of the command port names; every 3-bit code names one (R114). -/
def commandOfCode (code : BitVec 3) : Instr :=
  match code.toNat with
  | 0 => .reserved0
  | 1 => .cmdOpen
  | 2 => .cmdClose
  | 3 => .cmdRetrieveFrame
  | 4 => .cmdSnapshot
  | 5 => .reserved5
  | 6 => .reserved6
  | _ => .reserved7

/-- An operation without operand bytes. -/
def noOperand (rest : List Byte) (i : Instr) : Except DecodeError Instr :=
  match rest with
  | [] => .ok i
  | _ :: _ => .error .wrongLength

/-- The operand of PF.MATCH: one byte (log 11). -/
def decodePfMatch (rest : List Byte) : Except DecodeError Instr :=
  match rest with
  | [b0] => .ok (.pfMatch b0)
  | _ => .error .wrongLength

/-- The operand of PV.VALIDATE: a packet (log 11). -/
def decodePvValidate (rest : List Byte) : Except DecodeError Instr :=
  if rest.length = Config.pktBytes then .ok (.pvValidate rest) else .error .wrongLength

/-- The operands of FA.ACCEPT: the 6-bit number in a byte, then the payload (R160, log 11). -/
def decodeFaAccept (rest : List Byte) : Except DecodeError Instr :=
  match rest with
  | [] => .error .wrongLength
  | b :: pay =>
    if pay.length = Config.payBytes then
      (if b.toNat < 64 then .ok (.faAccept (b.setWidth 6) pay) else .error .operandOutOfRange)
    else .error .wrongLength

/-- The operand of FQ.ENQ: chunk and slot, four bytes each (log 11). -/
def decodeFqEnq (rest : List Byte) : Except DecodeError Instr :=
  match rest with
  | [a, b, c, d, e, f, g, h] => .ok (.fqEnq (be32 a b c d) (be32 e f g h))
  | _ => .error .wrongLength

/-- The operand of SP.EXIT: the reason (R117, log 11). -/
def decodeSpExit (rest : List Byte) : Except DecodeError Instr :=
  match rest with
  | [b] =>
    match b.toNat with
    | 0 => .ok (.spExit .cancel)
    | 1 => .ok (.spExit .transferFailure)
    | _ => .error .operandOutOfRange
  | _ => .error .wrongLength

/-- The operand of SC.RESYNC: the cause (R116, log 11). -/
def decodeScResync (rest : List Byte) : Except DecodeError Instr :=
  match rest with
  | [b] =>
    if b.toNat < 8 then
      (match causeOfCode (b.setWidth 3) with
      | some c => .ok (.scResync c)
      | none => .error .operandOutOfRange)
    else .error .operandOutOfRange
  | _ => .error .wrongLength

/-- The operand of SC.REJECT: the command code (R241, log 11). -/
def decodeScReject (rest : List Byte) : Except DecodeError Instr :=
  match rest with
  | [b] => if b.toNat < 8 then .ok (.scReject (b.setWidth 3)) else .error .operandOutOfRange
  | _ => .error .wrongLength

/-- TRACE5: an operation by its trace code (R117), with its operand bytes after it. -/
def decodeOp (code : Byte) (rest : List Byte) : Except DecodeError Instr :=
  match code.toNat with
  | 0x01 => decodePfMatch rest
  | 0x02 => decodePvValidate rest
  | 0x03 => decodeFaAccept rest
  | 0x04 => noOperand rest .faReset
  | 0x05 => noOperand rest .faWriteImage
  | 0x06 => noOperand rest .rbNextChunk
  | 0x07 => noOperand rest .spTransfer
  | 0x08 => noOperand rest .spSplit
  | 0x09 => decodeFqEnq rest
  | 0x0A => noOperand rest .fqDeq
  | 0x0B => noOperand rest .fqFlush
  | 0x0C => noOperand rest .spStart
  | 0x0D => noOperand rest .spCancel
  | 0x0E => decodeSpExit rest
  | 0x10 => noOperand rest .scOpen
  | 0x11 => noOperand rest .scClose
  | 0x12 => noOperand rest .scRetrieveFrame
  | 0x13 => noOperand rest .scSnapshot
  | 0x14 => decodeScResync rest
  | 0x16 => noOperand rest .scConsume
  | 0x17 => noOperand rest .tmFire
  | 0x18 => noOperand rest .tmBackoffEnd
  | 0x19 => decodeScReject rest
  | _ => .error .noSuchOperation

/-- PVRES9 (R112): the 9-bit code in a big-endian word; `SequenceNumber` carries the payload of its packet after it
(log 11). The codes with `cls` 0, reason 0 and `n` 60 to 63, which PV never produces, are taken as `SequenceNumber(n)` too
(DESIGN CHOICE, log 27). -/
def decodePvres (w : BitVec 16) (rest : List Byte) : Except DecodeError Instr :=
  if w.toNat < 0x40 then
    (if rest.length = Config.payBytes then .ok (.pvresSequenceNumber (w.setWidth 6) rest) else .error .wrongLength)
  else
    match w.toNat with
    | 0x080 => noOperand rest .pvresDiscard
    | 0x100 => noOperand rest .pvresErrorFlag
    | 0x140 => noOperand rest .pvresInvalidPacketNumber
    | _ => .error .reservedResult

/-- FARES4 (R113). -/
def decodeFares (b : Byte) : Except DecodeError Instr :=
  match b.toNat with
  | 0x0 => .ok .faresIncomplete
  | 0x4 => .ok .faresComplete
  | 0x8 => .ok .faresOutOfOrderPacket
  | 0x9 => .ok .faresInvalidSegmentOrdinal
  | 0xA => .ok .faresOutOfOrderSegment
  | _ => .error .reservedResult

/-- The decoder. It takes the current padding registers, because the class PAD depends on them (R105, R109). -/
def decode (mask pattern : Byte) (c : Code) : Except DecodeError Instr :=
  match c.fmt with
  | .hdr16 => if c.bytes.length = Config.pktBytes then .ok (decodePacket mask pattern c.bytes) else .error .wrongLength
  | .cmd3 =>
    match c.bytes with
    | [b] => decodeCmd b
    | _ => .error .wrongLength
  | .op5 =>
    match c.bytes with
    | [] => .error .wrongLength
    | b :: rest => decodeOp b rest
  | .pvres9 =>
    match c.bytes with
    | a :: b :: rest => decodePvres (be16 a b) rest
    | _ => .error .wrongLength
  | .fares4 =>
    match c.bytes with
    | [b] => decodeFares b
    | _ => .error .wrongLength
  | .powerOn =>
    match c.bytes with
    | [] => .ok .reset
    | _ :: _ => .error .wrongLength

/-! ### The encoder -/

/-- The 164 bytes of a packet (R100). -/
def packetBytes (hdr crc : BitVec 16) (pay : List Byte) : List Byte := be16Bytes hdr ++ be16Bytes crc ++ pay

/-- An operation's code byte and its operand bytes. -/
def opCode (code : Byte) (operand : List Byte) : Code := ⟨.op5, code :: operand⟩

/-- A command code on the command port (R114). -/
def cmdCode (code : BitVec 3) : Code := ⟨.cmd3, [code.setWidth 8]⟩

/-- A PVRES code in its big-endian word. -/
def pvresWord (r : PvRes) (operand : List Byte) : Code := ⟨.pvres9, be16Bytes ((pvresCode r).setWidth 16) ++ operand⟩

/-- A FARES code in its byte. -/
def faresWord (r : FaRes) : Code := ⟨.fares4, [(faresCode r).setWidth 8]⟩

/-- The encoder: the bytes of an instruction, from the same tables as the decoder. -/
def encode (i : Instr) : Code :=
  match i with
  | .pad hdr crc pay => ⟨.hdr16, packetBytes hdr crc pay⟩
  | .fatal t pn crc pay => ⟨.hdr16, packetBytes (mkHdr 1 t pn) crc pay⟩
  | .badnum t pn crc pay => ⟨.hdr16, packetBytes (mkHdr 0 t pn) crc pay⟩
  | .blank t crc pay => ⟨.hdr16, packetBytes (mkHdr 0 t 0) crc pay⟩
  | .data0 t crc pay => ⟨.hdr16, packetBytes (mkHdr 0 t 0) crc pay⟩
  | .data20 t crc pay => ⟨.hdr16, packetBytes (mkHdr 0 t 20) crc pay⟩
  | .data59 t crc pay => ⟨.hdr16, packetBytes (mkHdr 0 t 59) crc pay⟩
  | .data t n crc pay => ⟨.hdr16, packetBytes (mkHdr 0 t (n.setWidth 12)) crc pay⟩
  | .cmdOpen => cmdCode 1
  | .cmdClose => cmdCode 2
  | .cmdRetrieveFrame => cmdCode 3
  | .cmdSnapshot => cmdCode 4
  | .reserved0 => cmdCode 0
  | .reserved5 => cmdCode 5
  | .reserved6 => cmdCode 6
  | .reserved7 => cmdCode 7
  | .pfMatch b0 => opCode 0x01 [b0]
  | .pvValidate pkt => opCode 0x02 pkt
  | .faAccept pn pay => opCode 0x03 (pn.setWidth 8 :: pay)
  | .faReset => opCode 0x04 []
  | .faWriteImage => opCode 0x05 []
  | .rbNextChunk => opCode 0x06 []
  | .spTransfer => opCode 0x07 []
  | .spSplit => opCode 0x08 []
  | .fqEnq chunk slot => opCode 0x09 (be32Bytes chunk ++ be32Bytes slot)
  | .fqDeq => opCode 0x0A []
  | .fqFlush => opCode 0x0B []
  | .spStart => opCode 0x0C []
  | .spCancel => opCode 0x0D []
  | .spExit reason => opCode 0x0E [(exitCode reason).setWidth 8]
  | .scOpen => opCode 0x10 []
  | .scClose => opCode 0x11 []
  | .scRetrieveFrame => opCode 0x12 []
  | .scSnapshot => opCode 0x13 []
  | .scResync cause => opCode 0x14 [(causeCode cause).setWidth 8]
  | .scConsume => opCode 0x16 []
  | .tmFire => opCode 0x17 []
  | .tmBackoffEnd => opCode 0x18 []
  | .scReject code => opCode 0x19 [code.setWidth 8]
  | .reset => ⟨.powerOn, []⟩
  | .pvresSequenceNumber n pay => pvresWord (.sequenceNumber n) pay
  | .pvresDiscard => pvresWord .discard []
  | .pvresErrorFlag => pvresWord (.fatal .errorFlag) []
  | .pvresInvalidPacketNumber => pvresWord (.fatal .invalidPacketNumber) []
  | .faresIncomplete => faresWord .incomplete
  | .faresComplete => faresWord .complete
  | .faresOutOfOrderPacket => faresWord (.sequenceError .outOfOrderPacket)
  | .faresInvalidSegmentOrdinal => faresWord (.sequenceError .invalidSegmentOrdinal)
  | .faresOutOfOrderSegment => faresWord (.sequenceError .outOfOrderSegment)

/-! ### The opcode table's numbering -/

/-- How many operand bytes an operation's code byte is followed by (log 11). -/
def operandBytes (code : Nat) : Nat :=
  match code with
  | 0x01 => 1
  | 0x02 => 164
  | 0x03 => 161
  | 0x09 => 8
  | 0x0E => 1
  | 0x14 => 1
  | 0x19 => 1
  | _ => 0

/-- The operation with code `w` and operand bytes of zeros. -/
def tableOp (w : Nat) : Code := opCode (BitVec.ofNat 8 w) (List.replicate (operandBytes w) 0)

/-- The result PVRES with code `w`, a `SequenceNumber` with a payload of zeros. -/
def tablePvres (w : Nat) : Code :=
  ⟨.pvres9, be16Bytes (BitVec.ofNat 16 w) ++ List.replicate (if w < 0x40 then Config.payBytes else 0) 0⟩

/-- The encoded instruction whose bits are `w` as the opcode table numbers them. The table's formats share numbers: a
word of 16 bits is read as a header, a word of 8 bits as a command where it is one and else as an operation; the exact
widths 3, 4, 5 and 9 name CMD3, FARES4, TRACE5 and PVRES9 (DESIGN CHOICE, log 12). A header comes with CRC and
payload bytes of zeros. -/
def tableCode (nbits w : Nat) : Option Code :=
  if 2 ^ nbits ≤ w then none
  else
    match nbits with
    | 0 => some ⟨.powerOn, []⟩
    | 3 => some (cmdCode (BitVec.ofNat 3 w))
    | 4 => some ⟨.fares4, [BitVec.ofNat 8 w]⟩
    | 5 => some (tableOp w)
    | 8 => some (if w < 8 then cmdCode (BitVec.ofNat 3 w) else tableOp w)
    | 9 => some (tablePvres w)
    | 16 => some ⟨.hdr16, packetBytes (BitVec.ofNat 16 w) 0 (List.replicate Config.payBytes 0)⟩
    | _ => none

/-- The instruction the decoder reads from such a word, with the padding registers at their build defaults. -/
def decodeTableWord (nbits w : Nat) : Option Instr :=
  match tableCode nbits w with
  | none => none
  | some c =>
    match decode Config.padMaskDefault Config.padPatternDefault c with
    | .ok i => some i
    | .error _ => none

end Sys2Proof
end

