-- ==== Sys2Proof/WellFormed.lean ====
section
/-!
DEFINITION. Which instruction terms are encodable: the checks on operands that the types do not make. A packet class
is well formed under given padding registers, because the classes FATAL to DATA are those that PF lets through (R109).
-/

namespace Sys2Proof

/-- The header does not match the padding pattern, so the packet is not of class PAD (R109). -/
def notPad (mask pattern : Byte) (hdr : BitVec 16) : Bool := !isPad mask pattern (hdr.extractLsb' 8 8)

/-- A payload has 160 bytes (R100). -/
def payOk (pay : List Byte) : Bool := pay.length == Config.payBytes

/-- The packet numbers of class DATA: 1 to 19 and 21 to 58 (R109). -/
def dataNumber (n : BitVec 6) : Bool := decide (1 ≤ n.toNat ∧ n.toNat ≤ 58 ∧ n.toNat ≠ 20)

/-- An instruction that some bytes encode under the padding registers given. -/
def wellFormed (mask pattern : Byte) (i : Instr) : Bool :=
  match i with
  | .pad hdr _ pay => isPad mask pattern (hdr.extractLsb' 8 8) && payOk pay
  | .fatal t pn _ pay => notPad mask pattern (mkHdr 1 t pn) && payOk pay
  | .badnum t pn _ pay => notPad mask pattern (mkHdr 0 t pn) && decide (Config.maxPn < pn.toNat) && payOk pay
  | .blank t _ pay => notPad mask pattern (mkHdr 0 t 0) && payStartZero pay && payOk pay
  | .data0 t _ pay => notPad mask pattern (mkHdr 0 t 0) && !payStartZero pay && payOk pay
  | .data20 t _ pay => notPad mask pattern (mkHdr 0 t 20) && payOk pay
  | .data59 t _ pay => notPad mask pattern (mkHdr 0 t 59) && payOk pay
  | .data t n _ pay => notPad mask pattern (mkHdr 0 t (n.setWidth 12)) && dataNumber n && payOk pay
  | .pvValidate pkt => pkt.length == Config.pktBytes
  | .faAccept _ pay => payOk pay
  | .pvresSequenceNumber _ pay => payOk pay
  | .cmdOpen => true
  | .cmdClose => true
  | .cmdRetrieveFrame => true
  | .cmdSnapshot => true
  | .reserved0 => true
  | .reserved5 => true
  | .reserved6 => true
  | .reserved7 => true
  | .pfMatch _ => true
  | .faReset => true
  | .faWriteImage => true
  | .rbNextChunk => true
  | .spTransfer => true
  | .spSplit => true
  | .fqEnq _ _ => true
  | .fqDeq => true
  | .fqFlush => true
  | .spStart => true
  | .spCancel => true
  | .spExit _ => true
  | .scOpen => true
  | .scClose => true
  | .scRetrieveFrame => true
  | .scSnapshot => true
  | .scResync _ => true
  | .scConsume => true
  | .tmFire => true
  | .tmBackoffEnd => true
  | .scReject _ => true
  | .reset => true
  | .pvresDiscard => true
  | .pvresErrorFlag => true
  | .pvresInvalidPacketNumber => true
  | .faresIncomplete => true
  | .faresComplete => true
  | .faresOutOfOrderPacket => true
  | .faresInvalidSegmentOrdinal => true
  | .faresOutOfOrderSegment => true

end Sys2Proof
end

