-- ==== Sys2Proof/Machine/State.lean ====
section
/-!
DEFINITION. The state of the block as plain data, grouped by the unit that owns it (R2, R43), the reasons a step can
stop, and the state after power-on reset (R44).
-/

namespace Sys2Proof.Machine

/-- The frame assembler FA (R21 to R24). SEGBUF and FRAMEBUF are lists of (address, byte) with rising addresses; an
address without an entry has not been written since reset, and reading it is a free draw (R311, log 4). -/
structure Fa where
  /-- `last_pn` (R21); `none` is NONE. -/
  lastPn : Option (BitVec 6)
  /-- `seg_ord` (R22). -/
  segOrd : BitVec 3
  /-- SEGBUF (R23). -/
  segbuf : List Host.Cell
  /-- FRAMEBUF (R24). -/
  framebuf : List Host.Cell
deriving DecidableEq, Repr

/-- The ring buffer controller RB (R25 to R27). -/
structure Ring where
  /-- ARENA (R25). -/
  arena : List Host.Cell
  /-- `wr_idx` (R26). -/
  wrIdx : Nat
  /-- `refcnt[c]` (R27): (chunk, count) with rising chunks; a chunk without an entry has count 0. -/
  refcnt : List (Nat × Nat)
deriving DecidableEq, Repr

/-- The queue FQ in its hardware form (R28, R79). -/
structure Queue where
  /-- QSTORE: (entry, descriptor) with rising entries; an entry not listed has not been written since reset. -/
  store : List (Nat × Desc)
  /-- `q_head`. -/
  head : Nat
  /-- `q_tail`. -/
  tail : Nat
  /-- `q_count`. -/
  count : Nat
deriving DecidableEq, Repr

/-- The producer sequencer SP (R29, R30). -/
structure Prod where
  /-- `cancel` (R29). -/
  cancel : Bool
  /-- `p_state` (R30). -/
  pState : PState
  /-- `cur_chunk` (R30). -/
  curChunk : Nat
  /-- `split_idx` (R30). -/
  splitIdx : Nat
deriving DecidableEq, Repr

/-- The controller sequencer SC (R32, R33, R38). -/
structure Ctl where
  /-- `sc_state` (R32). -/
  scState : ScState
  /-- `cmd` (R33). -/
  cmd : Cmd
  /-- `snap_phase` (R33). -/
  snapPhase : SnapPhase
  /-- `snap_status` (R33). -/
  snapStatus : Status
  /-- `tr_open` (R38). -/
  trOpen : Bool
deriving DecidableEq, Repr

/-- The timers TM (R34, R35). -/
structure Tim where
  /-- `dl_armed` (R34). -/
  dlArmed : Bool
  /-- `dl_fired` (R34). -/
  dlFired : Bool
  /-- `bo_running` (R35). -/
  boRunning : Bool
deriving DecidableEq, Repr

/-- The configuration registers (R36). -/
structure Regs where
  /-- `PAD_MASK`. -/
  padMask : Byte
  /-- `PAD_PATTERN`. -/
  padPattern : Byte
  /-- `DEADLINE`, in milliseconds (log 6). -/
  deadline : Nat
  /-- `BACKOFF`, in milliseconds (log 6). -/
  backoff : Nat
deriving DecidableEq, Repr

/-- The status registers that are stored (R37); `STATE` is the code of `sc_state` (R230), see `stateReg`. -/
structure Stat where
  /-- `CAUSE`. -/
  cause : Cause
  /-- `STATUS`. -/
  status : Status
deriving DecidableEq, Repr

/-- The model's own inputs: what is still to happen (R10, logs 1, 4, 8). -/
structure Env where
  /-- The schedule still to be performed; empty, the next agent is a free draw. -/
  sched : List Line
  /-- Scripted answers of the transport; empty, they are free draws. -/
  trIn : List TrAnswer
  /-- How many draws have been taken. -/
  draws : Nat
  /-- How many power-on resets have happened since the first. -/
  epoch : Nat
deriving DecidableEq, Repr

/-- The model's own outputs (R12, log 21): the last results on the units' outputs, and what an observer has seen. No
rule reads any of them. -/
structure Out where
  /-- The last result of PF.MATCH. -/
  pf : Option Bool
  /-- The last result of PV.VALIDATE. -/
  pv : Option PvRes
  /-- The last result of FA.ACCEPT. -/
  fa : Option FaRes
  /-- The descriptor FQ.DEQ returned last. -/
  deq : Option Desc
  /-- The answers to commands, oldest first. -/
  answers : List Status
  /-- The requests to the transport, oldest first. -/
  requests : List TrRequest
  /-- The trace records, oldest first. -/
  trace : List Event
deriving DecidableEq, Repr

/-- The state of the block (R20), the host's DEST (R39), the build parameters (R7), and the model's own inputs and
outputs. -/
structure State where
  cfg : Params
  fa : Fa
  ring : Ring
  queue : Queue
  prod : Prod
  ctl : Ctl
  tim : Tim
  regs : Regs
  stat : Stat
  /-- DEST (R39, R67), the one buffer that every RETRIEVE_FRAME and SNAPSHOT writes (log 28): (word address, word) with
  rising addresses; a word not listed has been written by neither the host nor the block. -/
  dest : List (Nat × BitVec 16)
  env : Env
  out : Out
deriving DecidableEq, Repr

/-- Why the machine stops. All are safe: the block forms none of these addresses (R202), and no state that satisfies
`Safety.Inv` reaches one. -/
inductive Fault
  /-- An access outside ARENA, or a descriptor of a packet outside it (R111); raised by SP.TRANSFER, SP.SPLIT, SP.EXIT,
  FQ.ENQ and SC.CONSUME. -/
  | outsideArena
  /-- An access outside SEGBUF; raised by FA.ACCEPT, and only on a payload of more than 160 bytes, which no encoding
  carries. -/
  | outsideSegbuf
  /-- An access outside FRAMEBUF; raised by FA.ACCEPT. -/
  | outsideFramebuf
  /-- An access outside QSTORE; raised by FQ.ENQ and FQ.DEQ. -/
  | outsideQstore
  /-- A write of the host outside DEST. -/
  | outsideDest
deriving DecidableEq, Repr

/-- Why an instruction has no meaning. Both are safe: the model stops. -/
inductive Refusal
  /-- The instruction has no meaning in this model; raised by `exec`. -/
  | notModelled (mnemonic : String)
  /-- A line of the schedule is no encoding of an instruction; raised by `step` (log 17). -/
  | undecodable (e : DecodeError)
deriving DecidableEq, Repr

/-- FA after power-on reset (R44). -/
def Fa.reset : Fa := ⟨none, 0, [], []⟩
/-- RB after power-on reset (R44). -/
def Ring.reset : Ring := ⟨[], 0, []⟩
/-- FQ after power-on reset (R44). -/
def Queue.reset : Queue := ⟨[], 0, 0, 0⟩
/-- SP after power-on reset (R44). -/
def Prod.reset : Prod := ⟨false, .idle, 0, 0⟩
/-- SC after power-on reset (R44). -/
def Ctl.reset : Ctl := ⟨.closed, .none, .opening, .ok, false⟩
/-- TM after power-on reset (R44). -/
def Tim.reset : Tim := ⟨false, false, false⟩
/-- The configuration registers after power-on reset (R36, R44): the padding registers at the build parameters, the
durations at the reference values. -/
def Regs.reset (c : Params) : Regs := ⟨c.padMask, c.padPattern, Config.deadlineDefault, Config.backoffDefault⟩
/-- The status registers after power-on reset (R44). -/
def Stat.reset : Stat := ⟨.none, .ok⟩
/-- The model's own inputs in its first state (log 1). -/
def Env.reset : Env := ⟨[], [], 0, 0⟩
/-- The model's own outputs in its first state (log 21). -/
def Out.reset : Out := ⟨none, none, none, none, [], [], []⟩

/-- A block built with the parameters `c`, right after power-on reset (R7, R44, R310, R311). -/
def State.resetOf (c : Params) : State where
  cfg := c
  fa := Fa.reset
  ring := Ring.reset
  queue := Queue.reset
  prod := Prod.reset
  ctl := Ctl.reset
  tim := Tim.reset
  regs := Regs.reset c
  stat := Stat.reset
  dest := []
  env := Env.reset
  out := Out.reset

/-- The machine right after power-on reset, for the build of `Config.build` (log 5). -/
def State.reset : State := State.resetOf Config.build

end Sys2Proof.Machine
end

