-- ==== Sys2Proof/Machine/Flags.lean ====
section
/-!
DEFINITION. The conditions the block tests: it has no arithmetic flags, only one-bit status flags and the combinational
conditions below (R40).
-/

namespace Sys2Proof.Machine

/-- `q_full` (R28). -/
def qFull (s : State) : Bool := s.queue.count == s.cfg.qcap
/-- `q_empty` (R28). -/
def qEmpty (s : State) : Bool := s.queue.count == 0
/-- `enq_ready`, the handshake on the producer's side (R193). -/
def enqReady (s : State) : Bool := decide (s.queue.count < s.cfg.qcap)
/-- `deq_valid`, the handshake on the consumer's side (R194). -/
def deqValid (s : State) : Bool := decide (0 < s.queue.count)

/-- "Producer terminated": `P_DONE_CANCEL`, `P_DONE_FAIL` or `P_IDLE` (R199, R240). -/
def producerTerminated (s : State) : Bool :=
  s.prod.pState == .doneCancel || s.prod.pState == .doneFail || s.prod.pState == .idle

/-- The command port is ready (R239). -/
def portReady (s : State) : Bool := s.ctl.cmd == .none

/-- A retrieval is in progress: the command is RETRIEVE_FRAME, or a SNAPSHOT in its retrieving part (R45 item 10). -/
def retrieving (s : State) : Bool :=
  s.ctl.cmd == .retrieveFrame || (s.ctl.cmd == .snapshot && s.ctl.snapPhase == .retr)

/-- The pairs of command code and session state that R241 allows. -/
def allowedCommand (code : BitVec 3) (st : ScState) : Bool :=
  match code.toNat, st with
  | 1, .closed => true
  | 2, .opened => true
  | 3, .opened => true
  | 4, .closed => true
  | _, _ => false

/-- The successor of `last_pn` that FA accepts (R161). -/
def nextPn (last : Option (BitVec 6)) : Nat :=
  match last with
  | none => 0
  | some l => if l = 59 then 0 else l.toNat + 1

/-- `seq_ok` as R160 writes it: at most 59, and 0 after NONE, one more than `last_pn`, or the wrap from 59 to 0. -/
def seqOk (last : Option (BitVec 6)) (pn : BitVec 6) : Bool :=
  decide (pn.toNat ≤ Config.maxPn) &&
    match last with
    | none => pn == 0
    | some l => decide (pn.toNat = l.toNat + 1) || (l == 59 && pn == 0)

end Sys2Proof.Machine
end

