-- ==== Sys2Proof/Machine/Ops.lean ====
section
/-!
DEFINITION. The named operations over memories and registers that the meanings share: memory reads and writes (R15,
R60), the trace (R117), the transport (R283), the queue (R193 to R195), the frame assembler (R160 to R169), the
producer's start and stop (R196, R197), the answers (R230, R233), and the one trap: entering a resynchronisation and
returning from it (R235, R274, R275).
-/

namespace Sys2Proof.Machine

/-! ### Sparse stores -/

/-- A store is in its canonical form when its addresses rise strictly. -/
abbrev Memory.wf {α : Type} (m : List (Nat × α)) : Prop := m.Pairwise (fun a b => a.1 < b.1)

/-- The entry at an address, if one is listed. -/
def cellGet {α : Type} : List (Nat × α) → Nat → Option α
  | [], _ => none
  | (k, v) :: m, a => if k = a then some v else cellGet m a

/-- Values laid out at consecutive addresses. -/
def cellsFrom {α : Type} (base : Nat) : List α → List (Nat × α)
  | [] => []
  | v :: vs => (base, v) :: cellsFrom (base + 1) vs

/-- The store with the values written from `base` on. -/
def cellsSet {α : Type} (m : List (Nat × α)) (base : Nat) (vs : List α) : List (Nat × α) :=
  m.filter (fun c => decide (c.1 < base)) ++ cellsFrom base vs ++
    m.filter (fun c => decide (base + vs.length ≤ c.1))

/-- The store without an entry at an address. -/
def cellDel {α : Type} (m : List (Nat × α)) (a : Nat) : List (Nat × α) := m.filter (fun c => decide (c.1 ≠ a))

/-! ### The byte memories (R60 to R66) -/

/-- The size of a byte memory (R60). -/
def spaceSize (c : Params) : ByteSpace → Nat
  | .arena => c.n * chunkBytes c
  | .segbuf => Config.segBytes
  | .framebuf => Config.frameBytes

/-- What is listed of a byte memory. -/
def cellsOf (s : State) : ByteSpace → List Host.Cell
  | .arena => s.ring.arena
  | .segbuf => s.fa.segbuf
  | .framebuf => s.fa.framebuf

/-- The state with a byte memory's list replaced. -/
def withCells (sp : ByteSpace) (m : List Host.Cell) (s : State) : State :=
  match sp with
  | .arena => { s with ring.arena := m }
  | .segbuf => { s with fa.segbuf := m }
  | .framebuf => { s with fa.framebuf := m }

/-- The fault of an access outside a byte memory (log 16). -/
def outsideOf : ByteSpace → Fault
  | .arena => .outsideArena
  | .segbuf => .outsideSegbuf
  | .framebuf => .outsideFramebuf

/-- One byte of a memory. What nothing has written since reset is a free draw (R311, log 4). -/
def readByte (s : State) (sp : ByteSpace) (a : Nat) : Byte :=
  (cellGet (cellsOf s sp) a).getD (Config.powerOnByte s.env.epoch sp a)

/-- A byte has been written since reset. -/
def written (s : State) (sp : ByteSpace) (a : Nat) : Bool := (cellGet (cellsOf s sp) a).isSome

/-- `n` bytes of a memory, lowest address first. -/
def readBytes (s : State) (sp : ByteSpace) (a n : Nat) : List Byte := (List.range n).map (fun i => readByte s sp (a + i))

/-- `MemRead(SPACE, a, n)` (R15). -/
def memRead (sp : ByteSpace) (a n : Nat) (s : State) : Except Fault (List Byte) :=
  if a + n ≤ spaceSize s.cfg sp then .ok (readBytes s sp a n) else .error (outsideOf sp)

/-- `MemWrite(SPACE, a, n, v)` (R15). -/
def memWrite (sp : ByteSpace) (a : Nat) (bs : List Byte) (s : State) : Except Fault State :=
  if a + bs.length ≤ spaceSize s.cfg sp then .ok (withCells sp (cellsSet (cellsOf s sp) a bs) s)
  else .error (outsideOf sp)

/-- The byte address of chunk `c` (R61). -/
def chunkAddr (c : Params) (chunk : Nat) : Nat := chunk * chunkBytes c

/-- The byte address of slice `(chunk, slot)` (R61). -/
def sliceAddr (c : Params) (chunk slot : Nat) : Nat := chunkAddr c chunk + slot * Config.pktBytes

/-- `slice(c, s)`: the packet a descriptor names (R61, R111). -/
def readSlice (d : Desc) (s : State) : Except Fault (List Byte) :=
  memRead .arena (sliceAddr s.cfg d.chunk d.slot) Config.pktBytes s

/-- One word of DEST (R67). -/
def readDest (s : State) (a : Nat) : BitVec 16 := (cellGet s.dest a).getD (Config.hostWord a)

/-- The word address of pixel `(x, y)` (R67). -/
def pixelAddr (x y : Nat) : Nat := y * 160 + x

/-! ### Trace and transport -/

/-- `emit EV(...)`: a trace record when TRACE is true, nothing otherwise (R15, R285). -/
def emit (e : Event) (s : State) : State :=
  { s with out.trace := bif s.cfg.trace then s.out.trace ++ [e] else s.out.trace }

/-- A request to the transport (R283). -/
def request (r : TrRequest) (s : State) : State := { s with out.requests := s.out.requests ++ [r] }

/-- `request connect` (R230, R283). -/
def requestConnect (s : State) : State := request (.connect s.cfg.connectArgs) s

/-- The transport's answer to the outstanding request: the next scripted one, else a free draw (R283, log 8). -/
def answerOf (s : State) : TrAnswer :=
  match s.env.trIn with
  | a :: _ => a
  | [] => ⟨Config.transportOk s.env.draws, []⟩

/-- The state after an answer has been drawn. -/
def drawn (s : State) : State := { s with env.trIn := s.env.trIn.tail, env.draws := s.env.draws + 1 }

/-- The `n` bytes a successful transfer delivers: those of the answer, and a free draw for each it does not script
(R191, log 8). -/
def rxBytes (s : State) (n : Nat) : List Byte :=
  (List.range n).map (fun i => (answerOf s).data.getD i (Config.rxByte s.env.draws i))

/-- The `n` bytes a failed transfer leaves in its chunk: unspecified, so free draws (R191 corner case 1, log 9). -/
def failedBytes (s : State) (n : Nat) : List Byte := (List.range n).map (fun i => Config.failedByte s.env.draws i)

/-! ### Reference counts and the queue (R27, R28, R193 to R195) -/

/-- `refcnt[c]` (R27). -/
def refGet (s : State) (c : Nat) : Nat := (cellGet s.ring.refcnt c).getD 0

/-- The counts with `refcnt[c] <- v`; a count of 0 is not listed. -/
def refSet (m : List (Nat × Nat)) (c v : Nat) : List (Nat × Nat) := if v = 0 then cellDel m c else cellsSet m c [v]

/-- The descriptor in a QSTORE entry; what nothing has written since reset is a free draw (R311, log 4). -/
def qGet (s : State) (e : Nat) : Desc := (cellGet s.queue.store e).getD (Config.powerOnDesc s.env.epoch e)

/-- `q`: the queued descriptors, oldest first (R28). -/
def queued (s : State) : List Desc :=
  (List.range s.queue.count).map (fun i => qGet s ((s.queue.head + i) % s.cfg.qcap))

/-- A descriptor names a packet of ARENA: `chunk` in 0 to `N - 1`, `slot` in 0 to `P - 1` (R111). -/
def descOk (c : Params) (d : Desc) : Bool := decide (d.chunk < c.n ∧ d.slot < c.p)

/-- FQ.ENQ of `d`, for `q_count < QCAP` (R193). -/
def fqEnqOp (d : Desc) (s : State) : Except Fault State :=
  if descOk s.cfg d then
    (if s.queue.tail < s.cfg.qcap then
      .ok (emit (.enq d.chunk d.slot)
        { s with
          queue.store := cellsSet s.queue.store s.queue.tail [d]
          queue.tail := (s.queue.tail + 1) % s.cfg.qcap
          queue.count := s.queue.count + 1
          ring.refcnt := refSet s.ring.refcnt d.chunk (refGet s d.chunk + 1) })
    else .error .outsideQstore)
  else .error .outsideArena

/-- FQ.DEQ, for `q_count > 0`: the oldest descriptor and the state without it (R194). -/
def fqDeqOp (s : State) : Except Fault (Desc × State) :=
  if s.queue.head < s.cfg.qcap then
    let d := qGet s s.queue.head
    .ok (d, emit (.deq d.chunk d.slot)
      { s with
        queue.head := (s.queue.head + 1) % s.cfg.qcap
        queue.count := s.queue.count - 1
        ring.refcnt := refSet s.ring.refcnt d.chunk (refGet s d.chunk - 1)
        out.deq := some d })
  else .error .outsideQstore

/-- FQ.FLUSH, when the producer is not running (R195). -/
def fqFlushOp (s : State) : State :=
  emit .flush
    { s with
      queue.head := 0
      queue.tail := 0
      queue.count := 0
      ring.refcnt := []
      prod.pState := .idle }

/-- SP.START, when the producer is idle and the transport open (R196). -/
def spStartOp (s : State) : State :=
  emit .spStart
    { s with
      prod.cancel := false
      ring.wrIdx := 0
      ring.refcnt := []
      queue.head := 0
      queue.tail := 0
      queue.count := 0
      prod.splitIdx := 0
      prod.pState := .acq }

/-- SP.CANCEL (R197). -/
def spCancelOp (s : State) : State := emit .spCancel { s with prod.cancel := true }

/-- The producer terminates on `cancel` (R197, R198). -/
def exitOnCancel (s : State) : State := emit (.spExit .cancel) { s with prod.pState := .doneCancel }

/-! ### Transfers (R191) -/

/-- A transfer that succeeded: the chunk is filled and the producer splits it (R191). -/
def transferOk (s : State) : Except Fault State :=
  match memWrite .arena (chunkAddr s.cfg s.prod.curChunk) (rxBytes s (chunkBytes s.cfg)) s with
  | .error f => .error f
  | .ok s1 =>
    .ok (emit (.xfer s.prod.curChunk true)
      (request (.transfer (chunkBytes s.cfg)) (drawn { s1 with prod.splitIdx := 0, prod.pState := .split })))

/-- A transfer that failed: the chunk's bytes are unspecified and the producer terminates (R191); EV_XFER stands before
EV_SP_EXIT by the model's choice (log 23). -/
def transferFail (s : State) : Except Fault State :=
  match memWrite .arena (chunkAddr s.cfg s.prod.curChunk) (failedBytes s (chunkBytes s.cfg)) s with
  | .error f => .error f
  | .ok s1 =>
    .ok (emit (.spExit .transferFailure) (emit (.xfer s.prod.curChunk false)
      (request (.transfer (chunkBytes s.cfg)) (drawn { s1 with prod.pState := .doneFail }))))

/-! ### PF and PV (R140, R141) -/

/-- PF.MATCH with the current padding registers (R140). -/
def pfMatchOp (s : State) (b0 : Byte) : Bool := isPad s.regs.padMask s.regs.padPattern b0

/-- PV.VALIDATE (R141). -/
def validate (pkt : List Byte) : PvRes :=
  let h := pktHdr pkt
  if h.getLsbD 15 then .fatal .errorFlag
  else
    let n := hdrPn h
    if Config.maxPn < n.toNat then .fatal .invalidPacketNumber
    else if n = 0 ∧ byteAt pkt 4 = 0 ∧ byteAt pkt 5 = 0 then .discard
    else .sequenceNumber (n.setWidth 6)

/-- PV's result stands on its output, and is traced (R141). -/
def putPv (r : PvRes) (s : State) : State := emit (.validate r) { s with out.pv := some r }

/-! ### The frame assembler (R160 to R169) -/

/-- FA.RESET (R168). -/
def faResetOp (s : State) : State := emit .faReset { s with fa.lastPn := none, fa.segOrd := 0 }

/-- Part 3 of FA.ACCEPT: what packet 20 does to `seg_ord` (R163). -/
def ordinalStep (o : BitVec 4) (segOrd : BitVec 3) : Except FaDetail (BitVec 3) :=
  if 4 < o.toNat then .error .invalidSegmentOrdinal
  else if 0 < o.toNat then
    (if o.toNat ≠ segOrd.toNat + 1 then .error .outOfOrderSegment else .ok (o.setWidth 3))
  else .ok segOrd

/-- `seg_ord` after part 3, for any packet number (R163, R165). -/
def ordinalAfter (pn : BitVec 6) (pay : List Byte) (segOrd : BitVec 3) : Except FaDetail (BitVec 3) :=
  if pn = 20 then ordinalStep (payOrd pay) segOrd else .ok segOrd

/-- Part 4 of FA.ACCEPT: at packet 59 of a numbered segment SEGBUF is copied to its region of FRAMEBUF (R164). -/
def copySegment (pn : BitVec 6) (s : State) : Except Fault State :=
  if pn = 59 ∧ 0 < s.fa.segOrd.toNat then
    memWrite .framebuf ((s.fa.segOrd.toNat - 1) * Config.segBytes) (readBytes s .segbuf 0 Config.segBytes) s
  else .ok s

/-- The result part 4 decides (R164). -/
def acceptResult (pn : BitVec 6) (segOrd : BitVec 3) : FaRes := if pn = 59 ∧ segOrd = 4 then .complete else .incomplete

/-- FA.ACCEPT's effect on FA and its result (R160), without the trace. -/
def acceptCore (pn : BitVec 6) (pay : List Byte) (s : State) : Except Fault (FaRes × State) :=
  if seqOk s.fa.lastPn pn then
    match memWrite .segbuf (pn.toNat * Config.payBytes) pay s with
    | .error f => .error f
    | .ok s1 =>
      match ordinalAfter pn pay s1.fa.segOrd with
      | .error d => .ok (.sequenceError d, s1)
      | .ok o =>
        match copySegment pn { s1 with fa.segOrd := o } with
        | .error f => .error f
        | .ok s2 => .ok (acceptResult pn o, { s2 with fa.lastPn := some pn })
  else .ok (.sequenceError .outOfOrderPacket, s)

/-- FA.ACCEPT: the result stands on FA's output, and is traced (R160). -/
def faAcceptOp (pn : BitVec 6) (pay : List Byte) (s : State) : Except Fault (FaRes × State) :=
  match acceptCore pn pay s with
  | .error f => .error f
  | .ok (r, s1) => .ok (r, emit (.accept r) { s1 with out.fa := some r })

/-- The big-endian word of pixel `j` in frame slot `k` (R108, R169). -/
def framePixel (s : State) (k j : Nat) : BitVec 16 :=
  be16 (readByte s .framebuf (k * Config.payBytes + 2 * j)) (readByte s .framebuf (k * Config.payBytes + 2 * j + 1))

/-- Where pixel `j` of frame slot `k` goes: row `k div 2`, column `(k mod 2) * 80 + j` (R169). -/
def slotPixelAddr (k j : Nat) : Nat := pixelAddr (k % 2 * Config.pixPerPkt + j) (k / 2)

/-- The 19200 words FA.WRITE_IMAGE writes, slot by slot (R169). -/
def imageCells (s : State) : List (Nat × BitVec 16) :=
  (List.range Config.frameSlots).flatMap fun k =>
    (List.range Config.pixPerPkt).map fun j => (slotPixelAddr k j, framePixel s k j)

/-- FA.WRITE_IMAGE: every word of DEST is written (R169). -/
def writeImageOp (s : State) : State :=
  emit .writeImage { s with dest := imageCells s ++ s.dest.filter (fun c => decide (Config.destWords ≤ c.1)) }

/-! ### Answers (R230, R233, R241) -/

/-- The host receives an answer. -/
def answer (st : Status) (s : State) : State := { s with out.answers := s.out.answers ++ [st] }

/-- The event of the command in progress (R230). -/
def emitCmd (st : Status) (s : State) : State :=
  match s.ctl.cmd with
  | .none => s
  | .opening => emit (.openCmd st) s
  | .closing => emit (.closeCmd st) s
  | .retrieveFrame => emit (.retrieveCmd st) s
  | .snapshot => emit (.snapshotCmd st) s

/-- `respond(st)` (R230). -/
def respond (st : Status) (s : State) : State :=
  answer st { emitCmd st { s with stat.status := st } with ctl.cmd := .none }

/-- `reject(code)` (R241). -/
def reject (code : BitVec 3) (s : State) : State := answer .errUsage (emit (.badCmd code) { s with stat.status := .errUsage })

/-- `enter_retrieve()` (R233). -/
def enterRetrieve (s : State) : State :=
  { faResetOp s with tim.dlArmed := true, tim.dlFired := false, ctl.scState := .retr }

/-- `end_retrieve(st, open)` (R233). -/
def endRetrieve (st : Status) (isOpen : Bool) (s0 : State) : State :=
  let s := { s0 with tim.dlArmed := false }
  if s.ctl.cmd = .retrieveFrame then
    respond st { s with ctl.scState := if isOpen then .opened else .closed }
  else
    let s1 := { s with ctl.snapStatus := st }
    if isOpen then { spCancelOp { s1 with ctl.snapPhase := .closing } with ctl.scState := .clJoin }
    else respond st { s1 with ctl.scState := .closed }

/-! ### The trap: resynchronisation (R235, R274, R275) -/

/-- `raise Resync(cause)`, the entry: `CAUSE` is written, the producer cancelled, and SC goes to `S_RS_JOIN` (R235,
R274). Nothing else is saved (R271). -/
def raiseResync (c : Cause) (s : State) : State :=
  { spCancelOp (emit (.resync c) { s with stat.cause := c }) with ctl.scState := .rsJoin }

/-- A fault is raised only in `S_RETR` (R235, R275); a unit driven on its own outside it only shows its result
(log 13). -/
def raiseInRetr (c : Cause) (s : State) : State := if s.ctl.scState = .retr then raiseResync c s else s

/-- The join step of a resync, once the producer has terminated: close, flush, reset FA, start the backoff (R235). -/
def resyncJoin (s : State) : State :=
  { faResetOp (fqFlushOp { request .close s with ctl.trOpen := false }) with
    tim.boRunning := true
    ctl.scState := .rsBackoff }

/-- The reconnect is requested once the backoff is over (R235). -/
def resyncConnect (s : State) : State := { requestConnect s with ctl.scState := .rsConn }

/-- The return: after a successful reconnect the producer restarts and the retrieval goes on (R235, R275). -/
def resyncReturn (s : State) : State :=
  emit (.resyncEnd true) { spStartOp { s with ctl.trOpen := true } with ctl.scState := .retr }

/-- The reconnect failed: the command ends with `ERR_REOPEN` and the session is closed (R235). -/
def resyncFailed (s : State) : State := endRetrieve .errReopen false (emit (.resyncEnd false) s)

/-- The next step of a resync in progress; a step that is not enabled waits (R235). -/
def resyncStep (s : State) : State :=
  match s.ctl.scState with
  | .rsJoin => if producerTerminated s then resyncJoin s else s
  | .rsBackoff => if s.tim.boRunning then s else resyncConnect s
  | .rsConn => if (answerOf s).ok then resyncReturn (drawn s) else resyncFailed (drawn s)
  | .closed => s
  | .opConn => s
  | .opened => s
  | .retr => s
  | .clJoin => s

/-! ### What the controller does with a result (R234) -/

/-- The arms of SC.CONSUME for FA's result: nothing, the frame is written and the retrieval ends, or a resync (R234).
A completed frame is written and answered only in a retrieval (R169, log 13). -/
def treatFares (r : FaRes) (s : State) : State :=
  match r with
  | .incomplete => s
  | .complete => if s.ctl.scState = .retr then endRetrieve .ok true (writeImageOp s) else s
  | .sequenceError d => raiseInRetr (causeOfDetail d) s

/-- FA.ACCEPT followed by the controller's treatment of its result (R234). -/
def acceptAndTreat (n : BitVec 6) (pay : List Byte) (s : State) : Except Fault State :=
  match faAcceptOp n pay s with
  | .error f => .error f
  | .ok (r, s1) => .ok (treatFares r s1)

/-- The arms of SC.CONSUME for PV's result (R234). -/
def treatPvres (r : PvRes) (pay : List Byte) (s : State) : Except Fault State :=
  match r with
  | .fatal k => .ok (raiseInRetr (causeOfReason k) s)
  | .discard => .ok s
  | .sequenceNumber n => acceptAndTreat n pay s

/-- What SC.CONSUME does with the bytes of a packet: PV, then FA, then the treatment (R234). -/
def consumePacket (pkt : List Byte) (s : State) : Except Fault State :=
  let r := validate pkt
  treatPvres r (pktPay pkt) (putPv r s)

/-- The outcome of a meaning. -/
def outcome (r : Except Fault State) : Host.Outcome State Fault Refusal :=
  match r with
  | .ok s => .next s
  | .error f => .fault f

end Sys2Proof.Machine
end

