-- ==== Sys2Proof/Machine/Operands.lean ====
section
/-!
DEFINITION. The operands the operations find in the state (the slice under the producer, the descriptor at the head of
FQ) and the registers as the host reads them (R36, R37).
-/

namespace Sys2Proof.Machine

/-- The descriptor of the slice the producer examines (R192). -/
def curDesc (s : State) : Desc := ⟨s.prod.curChunk, s.prod.splitIdx⟩

/-- The descriptor operand of FQ.ENQ (R193). -/
def descOperand (chunk slot : BitVec 32) : Desc := ⟨chunk.toNat, slot.toNat⟩

/-- `pkt[0]` of the slice the producer examines (R192). -/
def curFirstByte (s : State) : Except Fault Byte :=
  match memRead .arena (sliceAddr s.cfg s.prod.curChunk s.prod.splitIdx) 1 s with
  | .error f => .error f
  | .ok bs => .ok (byteAt bs 0)

/-- The registers the host can read (R36, R37). -/
inductive HostReg
  | padMask | padPattern | deadline | backoff | cause | status | state
deriving DecidableEq, Repr

/-- `STATE`: always the code of `sc_state` (R37, R230). -/
def stateReg (s : State) : BitVec 3 := scStateCode s.ctl.scState

/-- What the host reads from a register; reading has no side effect (R36, R37). -/
def hostRead (s : State) : HostReg → Nat
  | .padMask => s.regs.padMask.toNat
  | .padPattern => s.regs.padPattern.toNat
  | .deadline => s.regs.deadline
  | .backoff => s.regs.backoff
  | .cause => (causeCode s.stat.cause).toNat
  | .status => (statusCode s.stat.status).toNat
  | .state => (stateReg s).toNat

end Sys2Proof.Machine
end

