-- ==== Sys2Proof/Machine/Commands.lean ====
section
/-!
DEFINITION. The host's commands at the command port (R114, R231 to R236, R241): accepted in the states that allow them,
answered `ERR_USAGE` in the others, and waiting outside the block while another command is in progress (R239, log 18).
-/

namespace Sys2Proof.Machine

/-- A command presented at the port: it waits until the port is ready, is refused where R241 does not allow it, and
else is accepted (R239, R241). -/
def present (code : BitVec 3) (accept : State → State) (s : State) : State :=
  if portReady s then (if allowedCommand code s.ctl.scState then accept s else reject code s) else s

/-- OPEN is accepted: connect is requested (R231). -/
def acceptOpen (s : State) : State :=
  { requestConnect { s with ctl.cmd := .opening } with ctl.scState := .opConn }

/-- CLOSE is accepted: the producer is cancelled (R232). -/
def acceptClose (s : State) : State :=
  { spCancelOp { s with ctl.cmd := .closing } with ctl.scState := .clJoin }

/-- RETRIEVE_FRAME is accepted (R233). -/
def acceptRetrieve (s : State) : State := enterRetrieve { s with ctl.cmd := .retrieveFrame }

/-- SNAPSHOT is accepted: connect is requested (R236). -/
def acceptSnapshot (s : State) : State :=
  { requestConnect { s with ctl.cmd := .snapshot, ctl.snapPhase := .opening, ctl.snapStatus := .ok } with
    ctl.scState := .opConn }

/-- OPEN (R231). -/
def execCmdOpen (s : State) : Host.Outcome State Fault Refusal := .next (present 1 acceptOpen s)

/-- CLOSE (R232). -/
def execCmdClose (s : State) : Host.Outcome State Fault Refusal := .next (present 2 acceptClose s)

/-- RETRIEVE_FRAME (R233). The operand DEST is the state's one DEST: the command carries none (DESIGN CHOICE,
log 28). -/
def execCmdRetrieveFrame (s : State) : Host.Outcome State Fault Refusal := .next (present 3 acceptRetrieve s)

/-- SNAPSHOT (R236). The operand DEST is the state's one DEST: the command carries none (DESIGN CHOICE, log 28). -/
def execCmdSnapshot (s : State) : Host.Outcome State Fault Refusal := .next (present 4 acceptSnapshot s)

/-- RESERVED_0: a usage error in every state (R241). -/
def execReserved0 (s : State) : Host.Outcome State Fault Refusal := .next (if portReady s then reject 0 s else s)

/-- RESERVED_5: a usage error in every state (R241). -/
def execReserved5 (s : State) : Host.Outcome State Fault Refusal := .next (if portReady s then reject 5 s else s)

/-- RESERVED_6: a usage error in every state (R241). -/
def execReserved6 (s : State) : Host.Outcome State Fault Refusal := .next (if portReady s then reject 6 s else s)

/-- RESERVED_7: a usage error in every state (R241). -/
def execReserved7 (s : State) : Host.Outcome State Fault Refusal := .next (if portReady s then reject 7 s else s)

end Sys2Proof.Machine
end

