-- ==== Sys2Proof/Machine/Control.lean ====
section
/-!
DEFINITION. The controller SC (43_controller.md): the steps of the commands in progress, SC.CONSUME, SC.RESYNC and
SC.REJECT. A step that is not enabled waits: the state is unchanged (R10, R240, log 10).
-/

namespace Sys2Proof.Machine

/-- The step of OPEN in `S_OP_CONN`: the transport's answer to connect (R231). -/
def openConnect (s : State) : State :=
  if (answerOf s).ok then
    respond .ok { spStartOp { drawn s with ctl.trOpen := true } with ctl.scState := .opened }
  else respond .errTransport { drawn s with ctl.scState := .closed }

/-- The step of SNAPSHOT in `S_OP_CONN` (R236). -/
def snapshotConnect (s : State) : State :=
  if (answerOf s).ok then
    enterRetrieve { spStartOp { drawn s with ctl.trOpen := true } with ctl.snapPhase := .retr }
  else respond .errTransport { drawn s with ctl.scState := .closed }

/-- The closing step in `S_CL_JOIN`, of CLOSE and of SNAPSHOT's closing part, once the producer has terminated
(R232). -/
def closeJoin (s : State) : State :=
  let s1 := { fqFlushOp { request .close s with ctl.trOpen := false } with ctl.scState := .closed }
  if s.ctl.cmd = .closing then respond .ok s1 else respond s.ctl.snapStatus s1

/-- SC.CONSUME's step in `S_RETR`: the fired deadline, then a stopped producer, then the next packet; when none of the
three holds it waits (R234). EV_CONSUME stands first in the turn's records by the model's choice (log 23). -/
def consumeStep (s : State) : Except Fault State :=
  if s.tim.dlFired then .ok (endRetrieve .errTimeout true (emit (.consume .timeout) s))
  else if s.prod.pState = .doneFail then
    .ok (raiseResync .pipelineStopped (emit (.consume .pipelineStopped) s))
  else if deqValid s then
    match fqDeqOp (emit (.consume .packet) s) with
    | .error f => .error f
    | .ok (d, s1) =>
      match readSlice d s1 with
      | .error f => .error f
      | .ok pkt => consumePacket pkt s1
  else .ok s

/-- The next step of a retrieval: SC.CONSUME in `S_RETR`, a step of SC.RESYNC during a resync (R233). -/
def retrievalStep (s : State) : Except Fault State :=
  if s.ctl.scState = .retr then consumeStep s else .ok (resyncStep s)

/-- SC.OPEN: the step of an OPEN in progress (R231). -/
def execScOpen (s : State) : Host.Outcome State Fault Refusal :=
  if s.ctl.scState = .opConn ∧ s.ctl.cmd = .opening then .next (openConnect s) else .next s

/-- SC.CLOSE: the closing step (R232). -/
def execScClose (s : State) : Host.Outcome State Fault Refusal :=
  if s.ctl.scState = .clJoin ∧ producerTerminated s = true then .next (closeJoin s) else .next s

/-- SC.RETRIEVE_FRAME: the next step of a RETRIEVE_FRAME in progress (R233). -/
def execScRetrieveFrame (s : State) : Host.Outcome State Fault Refusal :=
  if s.ctl.cmd = .retrieveFrame then outcome (retrievalStep s) else .next s

/-- The next step of a SNAPSHOT in progress: its opening, retrieving or closing part (R236). -/
def snapshotStep (s : State) : Except Fault State :=
  match s.ctl.scState with
  | .opConn => .ok (snapshotConnect s)
  | .retr => retrievalStep s
  | .rsJoin => retrievalStep s
  | .rsBackoff => retrievalStep s
  | .rsConn => retrievalStep s
  | .clJoin => .ok (if producerTerminated s then closeJoin s else s)
  | .closed => .ok s
  | .opened => .ok s

/-- SC.SNAPSHOT: the next step of a SNAPSHOT in progress (R236). -/
def execScSnapshot (s : State) : Host.Outcome State Fault Refusal :=
  if s.ctl.cmd = .snapshot then outcome (snapshotStep s) else .next s

/-- SC.RESYNC (R235): with a cause, its entry, which only `S_RETR` allows; without, the next step of the resync in
progress. -/
def execScResync (cause : Cause) (s : State) : Host.Outcome State Fault Refusal :=
  if cause = .none then .next (resyncStep s) else .next (raiseInRetr cause s)

/-- SC.CONSUME: one turn of the retrieval loop (R234). -/
def execScConsume (s : State) : Host.Outcome State Fault Refusal :=
  if s.ctl.scState = .retr then outcome (consumeStep s) else .next s

/-- SC.REJECT: what SC does with a command it refuses (R241). -/
def execScReject (code : BitVec 3) (s : State) : Host.Outcome State Fault Refusal :=
  if portReady s = true ∧ allowedCommand code s.ctl.scState = false then .next (reject code s) else .next s

end Sys2Proof.Machine
end

