-- ==== Sys2Proof/Machine/Packets.lean ====
section
/-!
DEFINITION. The packet classes (R109): what the block does with a packet of each class handed to PF, PV and FA in turn,
as SC.CONSUME does with the packet it dequeues (R234). The bits `t` and the CRC are ignored (R102, R110).
-/

namespace Sys2Proof.Machine

/-- PAD: PF drops the packet; PV and FA never see it and no register changes (R140). -/
def execPad (_hdr _crc : BitVec 16) (_pay : List Byte) (s : State) : Host.Outcome State Fault Refusal :=
  .next (emit (.pfDrop s.prod.curChunk s.prod.splitIdx) { s with out.pf := some true })

/-- FATAL: `Fatal(ERROR_FLAG)`, whatever the number says (R142). -/
def execFatal (_t : BitVec 3) (_pn : BitVec 12) (_crc : BitVec 16) (pay : List Byte) (s : State) :
    Host.Outcome State Fault Refusal :=
  outcome (treatPvres (.fatal .errorFlag) pay (putPv (.fatal .errorFlag) s))

/-- BADNUM: `Fatal(INVALID_PACKET_NUMBER)` (R143). -/
def execBadnum (_t : BitVec 3) (_pn : BitVec 12) (_crc : BitVec 16) (pay : List Byte) (s : State) :
    Host.Outcome State Fault Refusal :=
  outcome (treatPvres (.fatal .invalidPacketNumber) pay (putPv (.fatal .invalidPacketNumber) s))

/-- BLANK: `Discard`; FA is not called (R144). -/
def execBlank (_t : BitVec 3) (_crc : BitVec 16) (pay : List Byte) (s : State) : Host.Outcome State Fault Refusal :=
  outcome (treatPvres .discard pay (putPv .discard s))

/-- DATA0: `SequenceNumber(0)`; FA may start a pass with it (R145, R165). -/
def execData0 (_t : BitVec 3) (_crc : BitVec 16) (pay : List Byte) (s : State) : Host.Outcome State Fault Refusal :=
  outcome (treatPvres (.sequenceNumber 0) pay (putPv (.sequenceNumber 0) s))

/-- DATA20: `SequenceNumber(20)`; FA reads the segment ordinal (R145, R163). -/
def execData20 (_t : BitVec 3) (_crc : BitVec 16) (pay : List Byte) (s : State) : Host.Outcome State Fault Refusal :=
  outcome (treatPvres (.sequenceNumber 20) pay (putPv (.sequenceNumber 20) s))

/-- DATA59: `SequenceNumber(59)`; FA ends the pass (R145, R164). -/
def execData59 (_t : BitVec 3) (_crc : BitVec 16) (pay : List Byte) (s : State) : Host.Outcome State Fault Refusal :=
  outcome (treatPvres (.sequenceNumber 59) pay (putPv (.sequenceNumber 59) s))

/-- DATA: `SequenceNumber(n)` (R145, R165). -/
def execData (_t : BitVec 3) (n : BitVec 6) (_crc : BitVec 16) (pay : List Byte) (s : State) :
    Host.Outcome State Fault Refusal :=
  outcome (treatPvres (.sequenceNumber n) pay (putPv (.sequenceNumber n) s))

end Sys2Proof.Machine
end

