-- ==== Sys2Proof/Machine/Pipeline.lean ====
section
/-!
DEFINITION. RB, FQ and the producer SP (42_ring_fifo.md). An operation whose enabling condition does not hold waits:
the state is unchanged (R10, log 10).
-/

namespace Sys2Proof.Machine

/-- RB.NEXT_CHUNK's effect in `P_ACQ`: the chunk at `wr_idx` is handed to the producer (R190, R198). -/
def takeChunk (s : State) : State :=
  emit (.nextChunk s.ring.wrIdx)
    { s with
      prod.curChunk := s.ring.wrIdx
      ring.wrIdx := (s.ring.wrIdx + 1) % s.cfg.n
      prod.pState := .xfer }

/-- RB.NEXT_CHUNK, the step of the producer in `P_ACQ`; it waits until the chunk is not referenced (R190, R198). -/
def execRbNextChunk (s : State) : Host.Outcome State Fault Refusal :=
  if s.prod.pState = .acq ∧ s.prod.cancel = false ∧ refGet s s.ring.wrIdx = 0 then .next (takeChunk s) else .next s

/-- SP.TRANSFER, the step of the producer in `P_XFER` (R191). -/
def execSpTransfer (s : State) : Host.Outcome State Fault Refusal :=
  if s.prod.pState = .xfer then outcome (if (answerOf s).ok then transferOk s else transferFail s) else .next s

/-- SP.SPLIT at a slice that PF lets through: cancellation before room in FQ, and else a wait (R192, R198). -/
def splitQueue (s : State) : Except Fault State :=
  if s.prod.cancel then .ok (exitOnCancel { s with out.pf := some false })
  else if enqReady s then
    match fqEnqOp (curDesc s) s with
    | .error f => .error f
    | .ok s1 => .ok { s1 with prod.splitIdx := s.prod.splitIdx + 1, out.pf := some false }
  else .ok s

/-- SP.SPLIT's step (R192). -/
def splitStep (s : State) : Except Fault State :=
  if s.prod.splitIdx = s.cfg.p then .ok (emit (.splitDone s.prod.curChunk) { s with prod.pState := .acq })
  else
    match curFirstByte s with
    | .error f => .error f
    | .ok b0 =>
      if pfMatchOp s b0 then
        .ok (emit (.pfDrop s.prod.curChunk s.prod.splitIdx)
          { s with prod.splitIdx := s.prod.splitIdx + 1, out.pf := some true })
      else splitQueue s

/-- SP.SPLIT, the step of the producer in `P_SPLIT` (R192). -/
def execSpSplit (s : State) : Host.Outcome State Fault Refusal :=
  if s.prod.pState = .split then outcome (splitStep s) else .next s

/-- FQ.ENQ of a descriptor; it waits while FQ is full (R193). -/
def execFqEnq (chunk slot : BitVec 32) (s : State) : Host.Outcome State Fault Refusal :=
  if enqReady s then outcome (fqEnqOp (descOperand chunk slot) s) else .next s

/-- FQ.DEQ; it waits while FQ is empty (R194). -/
def execFqDeq (s : State) : Host.Outcome State Fault Refusal :=
  if deqValid s then
    match fqDeqOp s with
    | .error f => .fault f
    | .ok (_, s1) => .next s1
  else .next s

/-- FQ.FLUSH; it requires that the producer is not running (R195). -/
def execFqFlush (s : State) : Host.Outcome State Fault Refusal :=
  if producerTerminated s then .next (fqFlushOp s) else .next s

/-- SP.START; it requires `P_IDLE` and an open transport (R196). -/
def execSpStart (s : State) : Host.Outcome State Fault Refusal :=
  if s.prod.pState = .idle ∧ s.ctl.trOpen = true then .next (spStartOp s) else .next s

/-- SP.CANCEL (R197). -/
def execSpCancel (s : State) : Host.Outcome State Fault Refusal := .next (spCancelOp s)

/-- The producer's termination on `cancel`, at a slice PF lets through (R197, R198). -/
def exitAtSlice (s : State) : Except Fault State :=
  if s.prod.splitIdx = s.cfg.p then .ok s
  else
    match curFirstByte s with
    | .error f => .error f
    | .ok b0 => .ok (if pfMatchOp s b0 then s else exitOnCancel { s with out.pf := some false })

/-- SP.EXIT on cancellation: the two rows of R198 that end in `P_DONE_CANCEL`. -/
def exitCancelStep (s : State) : Except Fault State :=
  if s.prod.cancel = true ∧ s.prod.pState = .acq then .ok (exitOnCancel s)
  else if s.prod.cancel = true ∧ s.prod.pState = .split then exitAtSlice s
  else .ok s

/-- SP.EXIT: the producer's terminating step (R198). With the reason of a transfer failure it is SP.TRANSFER when the
transport answers with failure (R191). -/
def execSpExit (reason : ExitReason) (s : State) : Host.Outcome State Fault Refusal :=
  match reason with
  | .cancel => outcome (exitCancelStep s)
  | .transferFailure =>
    if s.prod.pState = .xfer ∧ (answerOf s).ok = false then outcome (transferFail s) else .next s

end Sys2Proof.Machine
end

