-- ==== Sys2Proof/Machine/Results.lean ====
section
/-!
DEFINITION. The result classes PVRES and FARES (R112, R113): what the controller does with each result, the arms of
SC.CONSUME (R234).
-/

namespace Sys2Proof.Machine

/-- PVRES.SequenceNumber: the packet goes to FA, and FA's result is treated (R234); of a number above 59 FA says
`SequenceError(OUT_OF_ORDER_PACKET)` (R167; log 27). -/
def execPvresSequenceNumber (n : BitVec 6) (pay : List Byte) (s : State) : Host.Outcome State Fault Refusal :=
  outcome (treatPvres (.sequenceNumber n) pay s)

/-- PVRES.Discard: nothing (R234). -/
def execPvresDiscard (s : State) : Host.Outcome State Fault Refusal := outcome (treatPvres .discard [] s)

/-- PVRES.Fatal.ERROR_FLAG: `Resync(ERROR_FLAG)` (R142, R234). -/
def execPvresErrorFlag (s : State) : Host.Outcome State Fault Refusal := outcome (treatPvres (.fatal .errorFlag) [] s)

/-- PVRES.Fatal.INVALID_PACKET_NUMBER: `Resync(INVALID_PACKET_NUMBER)` (R143, R234). -/
def execPvresInvalidPacketNumber (s : State) : Host.Outcome State Fault Refusal :=
  outcome (treatPvres (.fatal .invalidPacketNumber) [] s)

/-- FARES.Incomplete: nothing (R234). -/
def execFaresIncomplete (s : State) : Host.Outcome State Fault Refusal := .next (treatFares .incomplete s)

/-- FARES.Complete: FA.WRITE_IMAGE, and the retrieval ends with `OK` (R234). -/
def execFaresComplete (s : State) : Host.Outcome State Fault Refusal := .next (treatFares .complete s)

/-- FARES.SequenceError.OUT_OF_ORDER_PACKET: a resync with that cause (R234). -/
def execFaresOutOfOrderPacket (s : State) : Host.Outcome State Fault Refusal :=
  .next (treatFares (.sequenceError .outOfOrderPacket) s)

/-- FARES.SequenceError.INVALID_SEGMENT_ORDINAL: a resync with that cause (R234). -/
def execFaresInvalidSegmentOrdinal (s : State) : Host.Outcome State Fault Refusal :=
  .next (treatFares (.sequenceError .invalidSegmentOrdinal) s)

/-- FARES.SequenceError.OUT_OF_ORDER_SEGMENT: a resync with that cause (R234). -/
def execFaresOutOfOrderSegment (s : State) : Host.Outcome State Fault Refusal :=
  .next (treatFares (.sequenceError .outOfOrderSegment) s)

end Sys2Proof.Machine
end

