-- ==== Sys2Proof/Machine/Timers.lean ====
section
/-!
DEFINITION. The timer events TM (R237, R238) and the power-on reset (R310). No rule reads a duration: an event can
occur at any step while it is enabled (log 19).
-/

namespace Sys2Proof.Machine

/-- TM.FIRE (R237). -/
def execTmFire (s : State) : Host.Outcome State Fault Refusal :=
  if s.tim.dlArmed = true ∧ s.tim.dlFired = false then .next (emit .dlFire { s with tim.dlFired := true }) else .next s

/-- TM.BACKOFF_END (R238). -/
def execTmBackoffEnd (s : State) : Host.Outcome State Fault Refusal :=
  if s.tim.boRunning = true then .next (emit .boEnd { s with tim.boRunning := false }) else .next s

/-- The state after a power-on reset of `s`: every register of R44 at its value and the memories unspecified anew
(R310, R311). The build, the host's DEST (R39), what is still to happen and what has been observed stay (log 20). -/
def powerOn (s : State) : State :=
  { s with
    fa := Fa.reset
    ring := Ring.reset
    queue := Queue.reset
    prod := Prod.reset
    ctl := Ctl.reset
    tim := Tim.reset
    regs := Regs.reset s.cfg
    stat := Stat.reset
    env.epoch := s.env.epoch + 1 }

/-- RESET (R310). -/
def execReset (s : State) : Host.Outcome State Fault Refusal := .next (powerOn s)

end Sys2Proof.Machine
end

