-- ==== Sys2Proof/Machine/Units.lean ====
section
/-!
DEFINITION. The units PF, PV and FA driven on their own: PF.MATCH, PV.VALIDATE, FA.ACCEPT, FA.RESET, FA.WRITE_IMAGE
(40_validator.md, 41_assembler.md). The pipeline performs the same operations inside SP.SPLIT and SC.CONSUME.
-/

namespace Sys2Proof.Machine

/-- PF.MATCH (R140): the result stands on PF's output; a match is traced at the producer's position. -/
def execPfMatch (b0 : Byte) (s : State) : Host.Outcome State Fault Refusal :=
  let r := pfMatchOp s b0
  let s1 := { s with out.pf := some r }
  .next (if r then emit (.pfDrop s.prod.curChunk s.prod.splitIdx) s1 else s1)

/-- PV.VALIDATE (R141): no state is written; the result stands on PV's output. -/
def execPvValidate (pkt : List Byte) (s : State) : Host.Outcome State Fault Refusal := .next (putPv (validate pkt) s)

/-- FA.ACCEPT (R160). -/
def execFaAccept (pn : BitVec 6) (pay : List Byte) (s : State) : Host.Outcome State Fault Refusal :=
  match faAcceptOp pn pay s with
  | .error f => .fault f
  | .ok (_, s1) => .next s1

/-- FA.RESET (R168). -/
def execFaReset (s : State) : Host.Outcome State Fault Refusal := .next (faResetOp s)

/-- FA.WRITE_IMAGE (R169). -/
def execFaWriteImage (s : State) : Host.Outcome State Fault Refusal := .next (writeImageOp s)

end Sys2Proof.Machine
end

