-- ==== Sys2Proof/Machine/Dispatch.lean ====
section
/-!
DEFINITION. One meaning per instruction.
-/

namespace Sys2Proof.Machine

def exec (i : Instr) (s : State) : Host.Outcome State Fault Refusal :=
  match i with
  | .pad hdr crc pay => Sys2Proof.Machine.execPad hdr crc pay s
  | .fatal t pn crc pay => Sys2Proof.Machine.execFatal t pn crc pay s
  | .badnum t pn crc pay => Sys2Proof.Machine.execBadnum t pn crc pay s
  | .blank t crc pay => Sys2Proof.Machine.execBlank t crc pay s
  | .data0 t crc pay => Sys2Proof.Machine.execData0 t crc pay s
  | .data20 t crc pay => Sys2Proof.Machine.execData20 t crc pay s
  | .data59 t crc pay => Sys2Proof.Machine.execData59 t crc pay s
  | .data t n crc pay => Sys2Proof.Machine.execData t n crc pay s
  | .cmdOpen => Sys2Proof.Machine.execCmdOpen s
  | .cmdClose => Sys2Proof.Machine.execCmdClose s
  | .cmdRetrieveFrame => Sys2Proof.Machine.execCmdRetrieveFrame s
  | .cmdSnapshot => Sys2Proof.Machine.execCmdSnapshot s
  | .reserved0 => Sys2Proof.Machine.execReserved0 s
  | .reserved5 => Sys2Proof.Machine.execReserved5 s
  | .reserved6 => Sys2Proof.Machine.execReserved6 s
  | .reserved7 => Sys2Proof.Machine.execReserved7 s
  | .pfMatch b0 => Sys2Proof.Machine.execPfMatch b0 s
  | .pvValidate pkt => Sys2Proof.Machine.execPvValidate pkt s
  | .faAccept pn pay => Sys2Proof.Machine.execFaAccept pn pay s
  | .faReset => Sys2Proof.Machine.execFaReset s
  | .faWriteImage => Sys2Proof.Machine.execFaWriteImage s
  | .rbNextChunk => Sys2Proof.Machine.execRbNextChunk s
  | .spTransfer => Sys2Proof.Machine.execSpTransfer s
  | .spSplit => Sys2Proof.Machine.execSpSplit s
  | .fqEnq chunk slot => Sys2Proof.Machine.execFqEnq chunk slot s
  | .fqDeq => Sys2Proof.Machine.execFqDeq s
  | .fqFlush => Sys2Proof.Machine.execFqFlush s
  | .spStart => Sys2Proof.Machine.execSpStart s
  | .spCancel => Sys2Proof.Machine.execSpCancel s
  | .spExit reason => Sys2Proof.Machine.execSpExit reason s
  | .scOpen => Sys2Proof.Machine.execScOpen s
  | .scClose => Sys2Proof.Machine.execScClose s
  | .scRetrieveFrame => Sys2Proof.Machine.execScRetrieveFrame s
  | .scSnapshot => Sys2Proof.Machine.execScSnapshot s
  | .scResync cause => Sys2Proof.Machine.execScResync cause s
  | .scConsume => Sys2Proof.Machine.execScConsume s
  | .tmFire => Sys2Proof.Machine.execTmFire s
  | .tmBackoffEnd => Sys2Proof.Machine.execTmBackoffEnd s
  | .scReject code => Sys2Proof.Machine.execScReject code s
  | .reset => Sys2Proof.Machine.execReset s
  | .pvresSequenceNumber n pay => Sys2Proof.Machine.execPvresSequenceNumber n pay s
  | .pvresDiscard => Sys2Proof.Machine.execPvresDiscard s
  | .pvresErrorFlag => Sys2Proof.Machine.execPvresErrorFlag s
  | .pvresInvalidPacketNumber => Sys2Proof.Machine.execPvresInvalidPacketNumber s
  | .faresIncomplete => Sys2Proof.Machine.execFaresIncomplete s
  | .faresComplete => Sys2Proof.Machine.execFaresComplete s
  | .faresOutOfOrderPacket => Sys2Proof.Machine.execFaresOutOfOrderPacket s
  | .faresInvalidSegmentOrdinal => Sys2Proof.Machine.execFaresInvalidSegmentOrdinal s
  | .faresOutOfOrderSegment => Sys2Proof.Machine.execFaresOutOfOrderSegment s

end Sys2Proof.Machine
end

