-- ==== Sys2Proof/Machine/Fetch.lean ====
section
/-!
DEFINITION. Which instruction the next line of the schedule runs: an encoded instruction is decoded, a step of the
producer or the consumer is named by its sequencer's position (R30, R198, R240), and the host may write its registers
and DEST (R36, R43).
-/

namespace Sys2Proof.Machine

/-- The operation the producer's position names (R198); none while only SC can move it. -/
def producerOp (s : State) : Option Instr :=
  match s.prod.pState with
  | .idle => none
  | .acq => some (if s.prod.cancel then .spExit .cancel else .rbNextChunk)
  | .xfer => some .spTransfer
  | .split => some .spSplit
  | .doneCancel => none
  | .doneFail => none

/-- The operation the controller's position names (R240); none where it waits for a command. -/
def consumerOp (s : State) : Option Instr :=
  match s.ctl.scState with
  | .closed => none
  | .opConn => some (if s.ctl.cmd = .snapshot then .scSnapshot else .scOpen)
  | .opened => none
  | .retr => some .scConsume
  | .rsJoin => some (.scResync .none)
  | .rsBackoff => some (.scResync .none)
  | .rsConn => some (.scResync .none)
  | .clJoin => some .scClose

/-- A write of the host: a configuration register only while the session is closed, else the write is ignored (R36,
R323); a word of DEST at any time, also while a command is in progress (R43; log 26; DESIGN CHOICE beside R69's clause on
DEST during the command, log 29). -/
def hostWrite (w : HostWrite) (s : State) : Except Fault State :=
  match w with
  | .padMask v => .ok (if s.ctl.scState = .closed then { s with regs.padMask := v } else s)
  | .padPattern v => .ok (if s.ctl.scState = .closed then { s with regs.padPattern := v } else s)
  | .deadline ms => .ok (if s.ctl.scState = .closed then { s with regs.deadline := ms } else s)
  | .backoff ms => .ok (if s.ctl.scState = .closed then { s with regs.backoff := ms } else s)
  | .dest a v => if a < Config.destWords then .ok { s with dest := cellsSet s.dest a [v] } else .error .outsideDest

/-- The line of the schedule that stands for an agent's step. -/
def choiceLine (c : AgentChoice) : Line :=
  match c with
  | .command code => .code (cmdCode code)
  | .write w => .write w
  | .producer => .producer
  | .consumer => .consumer
  | .fire => .code (encode .tmFire)
  | .backoffEnd => .code (encode .tmBackoffEnd)
  | .powerOn => .code (encode .reset)

/-- The next line of the schedule and the state with it taken; when none is listed it is a free draw (R10, log 1). -/
def nextLine (s : State) : Line × State :=
  match s.env.sched with
  | l :: rest => (l, { s with env.sched := rest })
  | [] => (choiceLine (Config.agentChoice s.env.draws), { s with env.draws := s.env.draws + 1 })

/-- What a line of the schedule runs. -/
inductive Fetched
  /-- An instruction. -/
  | run (i : Instr)
  /-- The agent has no step to take. -/
  | wait
  /-- The host writes. -/
  | write (w : HostWrite)
  /-- The bytes encode no instruction. -/
  | bad (e : DecodeError)
deriving DecidableEq, Repr

/-- An agent's operation, or a wait. -/
def fetchOp (i : Option Instr) : Fetched :=
  match i with
  | some i => .run i
  | none => .wait

/-- The fetch: packets are decoded under the current padding registers (R76, R109). -/
def fetch (s : State) (l : Line) : Fetched :=
  match l with
  | .code c =>
    match decode s.regs.padMask s.regs.padPattern c with
    | .ok i => .run i
    | .error e => .bad e
  | .producer => fetchOp (producerOp s)
  | .consumer => fetchOp (consumerOp s)
  | .write w => .write w

/-- The schedule with an encoded instruction of the opcode table put first (log 2). -/
def withTableCode (s : State) (c : Option Code) : State :=
  match c with
  | some c => { s with env.sched := .code c :: s.env.sched }
  | none => s

end Sys2Proof.Machine
end

