-- ==== Sys2Proof/Machine/Step.lean ====
section
/-!
DEFINITION. One step of the block: one line of the schedule is taken and performed (R10).
-/

namespace Sys2Proof.Machine

/-- What was fetched is performed. -/
def runFetched (f : Fetched) (s : State) : Host.Outcome State Fault Refusal :=
  match f with
  | .run i => exec i s
  | .wait => .next s
  | .write w => outcome (hostWrite w s)
  | .bad e => .refused (.undecodable e)

/-- One atomic step of one agent (R10). -/
def step (s : State) : Host.Outcome State Fault Refusal :=
  runFetched (fetch (nextLine s).2 (nextLine s).1) (nextLine s).2

/-- The state whose next step runs the instruction with bits `w` of the opcode table (log 2). -/
def State.withFetchWord (s : State) (nbits w : Nat) : State := withTableCode s (tableCode nbits w)

end Sys2Proof.Machine
end

