-- ==== Sys2Proof/Safety.lean ====
section
/-!
DEFINITION. What counts as a safe state and run, in the terms the statements use: the invariants of R45 in inductive
form, the agent-level schedules (the interleavings of R10), and the frames the statements speak of.
-/

namespace Sys2Proof.Safety

open Sys2Proof.Machine

/-! ### Agent-level schedules -/

/-- The instructions that are atomic steps of an agent (R9, R198, R240): commands, the steps of the two sequencers, the
timer events and power-on. The block performs the others only as parts of such steps (log 7). -/
def agentInstr (i : Instr) : Bool :=
  match i with
  | .cmdOpen => true
  | .cmdClose => true
  | .cmdRetrieveFrame => true
  | .cmdSnapshot => true
  | .reserved0 => true
  | .reserved5 => true
  | .reserved6 => true
  | .reserved7 => true
  | .rbNextChunk => true
  | .spTransfer => true
  | .spSplit => true
  | .spExit _ => true
  | .scOpen => true
  | .scClose => true
  | .scRetrieveFrame => true
  | .scSnapshot => true
  | .scResync c => c == .none
  | .scConsume => true
  | .tmFire => true
  | .tmBackoffEnd => true
  | .scReject _ => true
  | .reset => true
  | .pad _ _ _ => false
  | .fatal _ _ _ _ => false
  | .badnum _ _ _ _ => false
  | .blank _ _ _ => false
  | .data0 _ _ _ => false
  | .data20 _ _ _ => false
  | .data59 _ _ _ => false
  | .data _ _ _ _ => false
  | .pfMatch _ => false
  | .pvValidate _ => false
  | .faAccept _ _ => false
  | .faReset => false
  | .faWriteImage => false
  | .fqEnq _ _ => false
  | .fqDeq => false
  | .fqFlush => false
  | .spStart => false
  | .spCancel => false
  | .pvresSequenceNumber _ _ => false
  | .pvresDiscard => false
  | .pvresErrorFlag => false
  | .pvresInvalidPacketNumber => false
  | .faresIncomplete => false
  | .faresComplete => false
  | .faresOutOfOrderPacket => false
  | .faresInvalidSegmentOrdinal => false
  | .faresOutOfOrderSegment => false

/-- A schedule line that is a step of an agent. -/
def agentLine (l : Line) : Bool :=
  match l with
  | .code c =>
    match decode Config.padMaskDefault Config.padPatternDefault c with
    | .ok i => agentInstr i
    | .error _ => false
  | .producer => true
  | .consumer => true
  | .write _ => true

/-- The schedule holds steps of agents only: the state is one of the block's own behaviour (R10). -/
def AgentSchedule (s : State) : Prop := ∀ l ∈ s.env.sched, agentLine l = true

/-! ### The invariants of R45 -/

/-- A store's addresses are below its size. -/
def Below {α : Type} (m : List (Nat × α)) (n : Nat) : Prop := ∀ c ∈ m, c.1 < n

/-- Every store is in its canonical form and inside its space (R60). -/
structure MemInv (s : State) : Prop where
  arena_wf : Memory.wf s.ring.arena
  segbuf_wf : Memory.wf s.fa.segbuf
  framebuf_wf : Memory.wf s.fa.framebuf
  dest_wf : Memory.wf s.dest
  store_wf : Memory.wf s.queue.store
  refcnt_wf : Memory.wf s.ring.refcnt
  refcnt_pos : ∀ c ∈ s.ring.refcnt, c.2 ≠ 0
  arena_below : Below s.ring.arena (spaceSize s.cfg .arena)
  segbuf_below : Below s.fa.segbuf Config.segBytes
  framebuf_below : Below s.fa.framebuf Config.frameBytes
  dest_below : Below s.dest Config.destWords
  store_below : Below s.queue.store s.cfg.qcap

/-- How many regions of FRAMEBUF hold a whole pass received since the last reset of FA: those of the ordinals adopted,
but for the last while its pass is still running (R173, R175). -/
def wholeRegions (s : State) : Nat :=
  match s.fa.lastPn with
  | none => 0
  | some l => if 20 ≤ l.toNat ∧ l.toNat ≤ 58 then s.fa.segOrd.toNat - 1 else s.fa.segOrd.toNat

/-- FA's invariants: R45 items 3 and 4, and what R172 and R175 say of the bytes written. -/
structure FaInv (s : State) : Prop where
  segOrd_le : s.fa.segOrd.toNat ≤ 4
  lastPn_le : ∀ l, s.fa.lastPn = some l → l.toNat ≤ 59
  segOrd_none : s.fa.lastPn = none → s.fa.segOrd = 0
  seg_written : ∀ l, s.fa.lastPn = some l → ∀ a, a < (l.toNat + 1) * 160 → written s .segbuf a = true
  frame_written : ∀ a, a < wholeRegions s * 9600 → written s .framebuf a = true

/-- The queue's invariants: R45 items 1, 2 and 7. -/
structure QueueInv (s : State) : Prop where
  count_le : s.queue.count ≤ s.cfg.qcap
  head_lt : s.queue.head < s.cfg.qcap
  tail_eq : s.queue.tail = (s.queue.head + s.queue.count) % s.cfg.qcap
  refcnt_eq : ∀ c, refGet s c = (queued s).countP (fun d => d.chunk == c)
  desc_ok : ∀ d ∈ queued s, descOk s.cfg d = true
  desc_written : ∀ d ∈ queued s, ∀ i, i < 164 → written s .arena (sliceAddr s.cfg d.chunk d.slot + i) = true
  slots_rise : (queued s).Pairwise (fun d e => d.chunk = e.chunk → d.slot < e.slot)

/-- The producer is running: it is in `P_ACQ`, `P_XFER` or `P_SPLIT`. -/
def running (s : State) : Bool := s.prod.pState == .acq || s.prod.pState == .xfer || s.prod.pState == .split

/-- The producer's invariants: R45 items 5, 6 and 8. -/
structure ProdInv (s : State) : Prop where
  wrIdx_lt : s.ring.wrIdx < s.cfg.n
  curChunk_lt : s.prod.curChunk < s.cfg.n
  splitIdx_le : s.prod.splitIdx ≤ s.cfg.p
  xfer_free : s.prod.pState = .xfer → refGet s s.prod.curChunk = 0
  split_slots : s.prod.pState = .split → ∀ d ∈ queued s, d.chunk = s.prod.curChunk → d.slot < s.prod.splitIdx
  split_written : s.prod.pState = .split →
    ∀ i, i < chunkBytes s.cfg → written s .arena (chunkAddr s.cfg s.prod.curChunk + i) = true
  running_open : running s = true → s.ctl.trOpen = true

/-- What each state of the controller implies of the command, the transport and the producer (R32, R45 items 9 and
10). -/
def ctlOk (s : State) : Prop :=
  match s.ctl.scState with
  | .closed => s.ctl.cmd = .none ∧ s.ctl.trOpen = false ∧ s.prod.pState = .idle
  | .opConn =>
    (s.ctl.cmd = .opening ∨ (s.ctl.cmd = .snapshot ∧ s.ctl.snapPhase = .opening)) ∧ s.ctl.trOpen = false ∧
      s.prod.pState = .idle
  | .opened =>
    s.ctl.cmd = .none ∧ s.ctl.trOpen = true ∧ s.prod.cancel = false ∧ s.prod.pState ≠ .idle ∧
      s.prod.pState ≠ .doneCancel
  | .retr =>
    retrieving s = true ∧ s.ctl.trOpen = true ∧ s.prod.cancel = false ∧ s.prod.pState ≠ .idle ∧
      s.prod.pState ≠ .doneCancel
  | .rsJoin => retrieving s = true ∧ s.ctl.trOpen = true ∧ s.prod.cancel = true ∧ s.prod.pState ≠ .idle
  | .rsBackoff => retrieving s = true ∧ s.ctl.trOpen = false ∧ s.prod.pState = .idle
  | .rsConn => retrieving s = true ∧ s.ctl.trOpen = false ∧ s.prod.pState = .idle
  | .clJoin =>
    (s.ctl.cmd = .closing ∨ (s.ctl.cmd = .snapshot ∧ s.ctl.snapPhase = .closing)) ∧ s.ctl.trOpen = true ∧
      s.prod.cancel = true ∧ s.prod.pState ≠ .idle

/-- The controller's invariants: R45 items 8 to 10 and the backoff timer (R35). -/
structure CtlInv (s : State) : Prop where
  state_ok : ctlOk s
  armed_iff : s.tim.dlArmed = retrieving s
  backoff_state : s.tim.boRunning = true → s.ctl.scState = .rsBackoff

/-- The invariants of R45 in inductive form, for states of the block's own behaviour. -/
structure Inv (s : State) : Prop where
  mem : MemInv s
  fa : FaInv s
  queue : QueueInv s
  prod : ProdInv s
  ctl : CtlInv s
  sched : AgentSchedule s

/-! ### Frames -/

/-- The pieces of state a frame speaks of: those of the spec, the host's DEST, the build, and the model's own inputs and
outputs. -/
inductive Part
  | lastPn | segOrd | segbuf | framebuf
  | arena | wrIdx | refcnt
  | queue
  | cancel | pState | curChunk | splitIdx
  | scState | cmd | snapPhase | snapStatus | trOpen
  | dlArmed | dlFired | boRunning
  | padMask | padPattern | deadline | backoff
  | cause | status
  | dest
  | cfg
  | sched | trIn | draws | epoch
  | outPf | outPv | outFa | outDeq | answers | requests | trace
deriving DecidableEq, Repr

/-- A piece of state is the same in two states; a memory is, when every address reads alike. -/
def same (p : Part) (s t : State) : Prop :=
  match p with
  | .lastPn => t.fa.lastPn = s.fa.lastPn
  | .segOrd => t.fa.segOrd = s.fa.segOrd
  | .segbuf => ∀ a, readByte t .segbuf a = readByte s .segbuf a
  | .framebuf => ∀ a, readByte t .framebuf a = readByte s .framebuf a
  | .arena => ∀ a, readByte t .arena a = readByte s .arena a
  | .wrIdx => t.ring.wrIdx = s.ring.wrIdx
  | .refcnt => ∀ c, refGet t c = refGet s c
  | .queue =>
    t.queue.head = s.queue.head ∧ t.queue.tail = s.queue.tail ∧ t.queue.count = s.queue.count ∧
      ∀ e, qGet t e = qGet s e
  | .cancel => t.prod.cancel = s.prod.cancel
  | .pState => t.prod.pState = s.prod.pState
  | .curChunk => t.prod.curChunk = s.prod.curChunk
  | .splitIdx => t.prod.splitIdx = s.prod.splitIdx
  | .scState => t.ctl.scState = s.ctl.scState
  | .cmd => t.ctl.cmd = s.ctl.cmd
  | .snapPhase => t.ctl.snapPhase = s.ctl.snapPhase
  | .snapStatus => t.ctl.snapStatus = s.ctl.snapStatus
  | .trOpen => t.ctl.trOpen = s.ctl.trOpen
  | .dlArmed => t.tim.dlArmed = s.tim.dlArmed
  | .dlFired => t.tim.dlFired = s.tim.dlFired
  | .boRunning => t.tim.boRunning = s.tim.boRunning
  | .padMask => t.regs.padMask = s.regs.padMask
  | .padPattern => t.regs.padPattern = s.regs.padPattern
  | .deadline => t.regs.deadline = s.regs.deadline
  | .backoff => t.regs.backoff = s.regs.backoff
  | .cause => t.stat.cause = s.stat.cause
  | .status => t.stat.status = s.stat.status
  | .dest => ∀ a, readDest t a = readDest s a
  | .cfg => t.cfg = s.cfg
  | .sched => t.env.sched = s.env.sched
  | .trIn => t.env.trIn = s.env.trIn
  | .draws => t.env.draws = s.env.draws
  | .epoch => t.env.epoch = s.env.epoch
  | .outPf => t.out.pf = s.out.pf
  | .outPv => t.out.pv = s.out.pv
  | .outFa => t.out.fa = s.out.fa
  | .outDeq => t.out.deq = s.out.deq
  | .answers => t.out.answers = s.out.answers
  | .requests => t.out.requests = s.out.requests
  | .trace => t.out.trace = s.out.trace

/-- The frame of a step: every piece of state but those listed is the same. -/
def AllBut (ps : List Part) (s t : State) : Prop := ∀ p, p ∉ ps → same p s t

/-- The bytes of a memory read alike but for the `n` bytes from `lo` on. -/
def SameBytesBut (sp : ByteSpace) (lo n : Nat) (s t : State) : Prop :=
  ∀ a, a < lo ∨ lo + n ≤ a → readByte t sp a = readByte s sp a

/-- The bytes from `lo` on read as listed. -/
def HoldsBytes (sp : ByteSpace) (lo : Nat) (bs : List Byte) (t : State) : Prop :=
  ∀ j, j < bs.length → readByte t sp (lo + j) = byteAt bs j

/-- Trace records were emitted when TRACE is true, and none otherwise (R285). -/
def Traced (s t : State) (es : List Event) : Prop :=
  t.out.trace = bif s.cfg.trace then s.out.trace ++ es else s.out.trace

/-- An instruction is performed: `exec` answers a next state, of which `q` holds. -/
def Completes (i : Instr) (s : State) (q : State → Prop) : Prop := ∃ t, exec i s = .next t ∧ q t

/-! ### Shapes of steps that several statements name -/

/-- The entry of a resynchronisation changed `CAUSE`, `cancel` and `sc_state` (R235, R274). -/
def Trapped (c : Cause) (t : State) : Prop :=
  t.stat.cause = c ∧ t.prod.cancel = true ∧ t.ctl.scState = .rsJoin

/-- What the entry of a resynchronisation writes. -/
def trapParts : List Part := [.cause, .cancel, .scState, .trace]

/-- A retrieval ended with the session still open: RETRIEVE_FRAME is answered in `S_OPEN`, SNAPSHOT goes on to close
(R233). -/
def EndedOpen (st : Status) (s t : State) : Prop :=
  t.tim.dlArmed = false ∧
    (s.ctl.cmd = .retrieveFrame →
      t.ctl.scState = .opened ∧ t.ctl.cmd = .none ∧ t.stat.status = st ∧ t.out.answers = s.out.answers ++ [st] ∧
        same .snapStatus s t ∧ same .snapPhase s t ∧ same .cancel s t) ∧
    (s.ctl.cmd = .snapshot →
      t.ctl.scState = .clJoin ∧ t.ctl.snapStatus = st ∧ t.ctl.snapPhase = .closing ∧ t.prod.cancel = true ∧
        same .cmd s t ∧ same .status s t ∧ same .answers s t)

/-- What the end of a retrieval may write; `EndedOpen` says which command writes which. -/
def endParts : List Part :=
  [.dlArmed, .scState, .cmd, .status, .answers, .snapStatus, .snapPhase, .cancel, .trace]

/-- DEST holds the image of FRAMEBUF: word `w` is the big-endian word at bytes `2w` and `2w + 1`, for all 19200 words
(R169). -/
def ImageWritten (s t : State) : Prop :=
  ∀ w, w < Config.destWords → readDest t w = be16 (readByte s .framebuf (2 * w)) (readByte s .framebuf (2 * w + 1))

/-- The step is the next turn of the retrieval loop: SC.CONSUME, or the step of the command in progress (R233, R234,
R236; log 14). -/
def RetrievalTurn (i : Instr) (s : State) : Prop :=
  i = .scConsume ∨ (i = .scRetrieveFrame ∧ s.ctl.cmd = .retrieveFrame) ∨ (i = .scSnapshot ∧ s.ctl.cmd = .snapshot)

/-- The step is the next step of the resynchronisation in progress: SC.RESYNC without a cause, or the step of the
command in progress (R233, R235, R236; logs 14, 15). -/
def ResyncTurn (i : Instr) (s : State) : Prop :=
  i = .scResync .none ∨ (i = .scRetrieveFrame ∧ s.ctl.cmd = .retrieveFrame) ∨ (i = .scSnapshot ∧ s.ctl.cmd = .snapshot)

/-- The step is the closing step: SC.CLOSE, or SC.SNAPSHOT in its closing part (R232, R236; log 14). -/
def ClosingTurn (i : Instr) (s : State) : Prop := i = .scClose ∨ (i = .scSnapshot ∧ s.ctl.cmd = .snapshot)

/-- A descriptor was appended: the queue, its pointers and the reference count of its chunk (R193). -/
def Enqueued (d : Desc) (s t : State) : Prop :=
  queued t = queued s ++ [d] ∧ t.queue.head = s.queue.head ∧ t.queue.tail = (s.queue.tail + 1) % s.cfg.qcap ∧
    t.queue.count = s.queue.count + 1 ∧ refGet t d.chunk = refGet s d.chunk + 1 ∧
    ∀ c, c ≠ d.chunk → refGet t c = refGet s c

/-- The oldest descriptor was taken: the queue, its pointers and the reference count of its chunk (R194). -/
def Dequeued (d : Desc) (s t : State) : Prop :=
  queued s = d :: queued t ∧ t.out.deq = some d ∧ t.queue.head = (s.queue.head + 1) % s.cfg.qcap ∧
    t.queue.tail = s.queue.tail ∧ t.queue.count + 1 = s.queue.count ∧
    (1 ≤ refGet s d.chunk → refGet t d.chunk + 1 = refGet s d.chunk) ∧
    ∀ c, c ≠ d.chunk → refGet t c = refGet s c

/-- The queue is empty with its pointers at 0 and no chunk is referenced (R195, R196). -/
def QueueCleared (s t : State) : Prop :=
  queued t = [] ∧ t.queue.head = 0 ∧ t.queue.tail = 0 ∧ t.queue.count = 0 ∧ (∀ c, refGet t c = 0) ∧
    ∀ e, qGet t e = qGet s e

/-- The producer was started (R196). -/
def Started (s t : State) : Prop :=
  t.prod.cancel = false ∧ t.ring.wrIdx = 0 ∧ t.prod.splitIdx = 0 ∧ t.prod.pState = .acq ∧ QueueCleared s t

/-- What SP.START writes. -/
def startParts : List Part := [.cancel, .wrIdx, .refcnt, .queue, .splitIdx, .pState, .trace]

/-- A command was answered (R230). -/
def Answered (st : Status) (s t : State) : Prop :=
  t.stat.status = st ∧ t.ctl.cmd = .none ∧ t.out.answers = s.out.answers ++ [st]

/-- What the answer to a command writes. -/
def answerParts : List Part := [.status, .cmd, .answers, .trace]

/-- An answer of the transport was drawn (R283; log 8). -/
def Drawn (s t : State) : Prop := t.env.trIn = s.env.trIn.tail ∧ t.env.draws = s.env.draws + 1

/-- The registers hold the values of R44's table: the padding registers those of the build, the two durations 10 s and
300 ms in the model's unit, the millisecond (DESIGN CHOICE, log 6). -/
def ResetValues (t : State) : Prop :=
  t.fa.lastPn = none ∧ t.fa.segOrd = 0 ∧ t.ring.wrIdx = 0 ∧ (∀ c, refGet t c = 0) ∧ queued t = [] ∧
    t.queue.head = 0 ∧ t.queue.tail = 0 ∧ t.queue.count = 0 ∧ t.prod.cancel = false ∧ t.prod.pState = .idle ∧
    t.prod.curChunk = 0 ∧ t.prod.splitIdx = 0 ∧ t.ctl.scState = .closed ∧ t.ctl.cmd = .none ∧
    t.ctl.snapPhase = .opening ∧ t.ctl.snapStatus = .ok ∧ t.ctl.trOpen = false ∧ t.tim.dlArmed = false ∧
    t.tim.dlFired = false ∧ t.tim.boRunning = false ∧ t.regs.padMask = t.cfg.padMask ∧
    t.regs.padPattern = t.cfg.padPattern ∧ t.regs.deadline = 10000 ∧ t.regs.backoff = 300 ∧ hostRead t .cause = 0 ∧
    hostRead t .status = 0 ∧ hostRead t .state = 0

/-- The writes of the configuration registers: the register, the piece of state that holds it, and the value the host
then reads there (R36). -/
def configWrite (w : HostWrite) : Option (HostReg × Part × Nat) :=
  match w with
  | .padMask v => some (.padMask, .padMask, v.toNat)
  | .padPattern v => some (.padPattern, .padPattern, v.toNat)
  | .deadline ms => some (.deadline, .deadline, ms)
  | .backoff ms => some (.backoff, .backoff, ms)
  | .dest _ _ => none

/-- A step wrote the image and ended the retrieval with `OK`: a RETRIEVE_FRAME is answered in `S_OPEN`, a SNAPSHOT goes
from its retrieving to its closing part (R233, R236). -/
def ImageEndsRetrieval (s t : State) : Prop :=
  s.ctl.scState = .retr ∧
    ((s.ctl.cmd = .retrieveFrame ∧ t.ctl.scState = .opened ∧ Answered .ok s t) ∨
      (s.ctl.cmd = .snapshot ∧ s.ctl.snapPhase = .retr ∧ t.ctl.scState = .clJoin ∧ t.ctl.cmd = .snapshot ∧
        t.ctl.snapPhase = .closing ∧ t.ctl.snapStatus = .ok ∧ same .answers s t))

/-- Of FQ the producer writes only the tail: it leaves the queue as it is, or writes the entry at `q_tail` and counts it
(R43, R193). -/
def TailOnly (s t : State) : Prop :=
  t.queue.head = s.queue.head ∧
    ((t.queue.tail = s.queue.tail ∧ t.queue.count = s.queue.count ∧ ∀ e, qGet t e = qGet s e) ∨
      (t.queue.tail = (s.queue.tail + 1) % s.cfg.qcap ∧ t.queue.count = s.queue.count + 1 ∧
        ∀ e, e ≠ s.queue.tail → qGet t e = qGet s e))

/-- The first byte of the slice the producer examines does not match the padding pattern (R105, R192). -/
def SliceKept (s : State) : Prop :=
  (readByte s .arena (s.prod.curChunk * (s.cfg.p * 164) + s.prod.splitIdx * 164) &&& s.regs.padMask) ≠
    (s.regs.padPattern &&& s.regs.padMask)

/-- The instructions that hand a numbered packet to FA and treat its result: the data classes and PVRES.SequenceNumber
(R145, R234). -/
def dataPacket (i : Instr) : Option (BitVec 6 × List Byte) :=
  match i with
  | .data0 _ _ pay => some (0, pay)
  | .data20 _ _ pay => some (20, pay)
  | .data59 _ _ pay => some (59, pay)
  | .data _ n _ pay => some (n, pay)
  | .pvresSequenceNumber n pay => some (n, pay)
  | _ => none

/-- The instructions that are a structural fault, with its cause: the classes FATAL and BADNUM, and the results that
report a fault (R234, R270). -/
def faultCause (i : Instr) : Option Cause :=
  match i with
  | .fatal _ _ _ _ => some .errorFlag
  | .badnum _ _ _ _ => some .invalidPacketNumber
  | .pvresErrorFlag => some .errorFlag
  | .pvresInvalidPacketNumber => some .invalidPacketNumber
  | .faresOutOfOrderPacket => some .outOfOrderPacket
  | .faresInvalidSegmentOrdinal => some .invalidSegmentOrdinal
  | .faresOutOfOrderSegment => some .outOfOrderSegment
  | _ => none

/-- The result PV gives a packet of a class, where the class fixes it and FA is not called (R109). -/
def classResult (i : Instr) : Option PvRes :=
  match i with
  | .fatal _ _ _ _ => some (.fatal .errorFlag)
  | .badnum _ _ _ _ => some (.fatal .invalidPacketNumber)
  | .blank _ _ _ => some .discard
  | _ => none

/-- What stands on PV's output after a packet: a class handed to the block leaves its result there. -/
def pvAfter (i : Instr) (s : State) : Option PvRes :=
  match classResult i with
  | some r => some r
  | none => s.out.pv

/-- Packets accepted one after the other by FA driven alone (R167): the last state, and the results in order. -/
def acceptAll : List (BitVec 6 × List Byte) → State → Option (State × List FaRes)
  | [], s => some (s, [])
  | (n, pay) :: rest, s =>
    match exec (.faAccept n pay) s with
    | .next t =>
      match t.out.fa, acceptAll rest t with
      | some r, some (u, rs) => some (u, r :: rs)
      | _, _ => none
    | .fault _ => none
    | .refused _ => none

/-- A frame as a sender packs it: the payload of frame slot `k` is packet `k mod 60` of segment `k div 60 + 1` (R24,
R120). -/
def framePackets (pays : Nat → List Byte) : List (BitVec 6 × List Byte) :=
  (List.range Config.frameSlots).map fun k => (BitVec.ofNat 6 (k % 60), pays k)

/-- The state without its trace: TRACE false and no records (R285). -/
def quiet (s : State) : State := { s with cfg.trace := false, out.trace := [] }

end Sys2Proof.Safety
end

