-- ==== Sys2Proof/Certificates/Slice0/Obligations.lean ====
section
/-!
DEFINITION. The statements for the provers. Each docstring names the rules of spec/ a statement draws on and, where a
clause rests on a choice of the model, the log entry; OBLIGATIONS.json says which rules a statement states whole.
`AllBut ps s t` is the frame: everything but `ps` is unchanged, every byte of every memory included.
-/

open Sys2Proof Sys2Proof.Machine Sys2Proof.Safety

/-! ### Encoding -/

/-- Decoding the bytes of a well-formed instruction gives it back, whatever the padding registers hold (R100 to R117;
operand bytes after the codes, log 11; PVRES numbers above 59, log 27). -/
def Obligations.DecodeOfEncodeIsTheInstruction : Prop :=
  ∀ (mask pattern : Byte) (i : Instr), wellFormed mask pattern i = true → decode mask pattern (encode i) = .ok i

/-- Bytes that decode are exactly the encoding of what they decode to, which is well formed: no two codes of the tables
overlap and no bit is dropped (R100 to R117; logs 11 and 27). -/
def Obligations.EncodeOfDecodeIsTheBytes : Prop :=
  ∀ (mask pattern : Byte) (c : Code) (i : Instr),
    decode mask pattern c = .ok i → encode i = c ∧ wellFormed mask pattern i = true

/-- The decoder of packets is R109's table of mask and match pairs, tried in order. -/
def Obligations.PacketClassesFollowTheMasks : Prop :=
  ∀ (mask pattern : Byte) (pkt : List Byte),
    let h := pktHdr pkt
    let t := h.extractLsb' 12 3
    let n := h.extractLsb' 0 12
    let crc := pktCrc pkt
    let pay := pkt.drop 4
    decodePacket mask pattern pkt =
      if byteAt pkt 0 &&& mask = pattern &&& mask then .pad h crc pay
      else if h &&& 0x8000 = 0x8000 then .fatal t n crc pay
      else if h &&& 0x8800 = 0x0800 ∨ h &&& 0x8C00 = 0x0400 ∨ h &&& 0x8E00 = 0x0200 ∨ h &&& 0x8F00 = 0x0100 ∨
          h &&& 0x8F80 = 0x0080 ∨ h &&& 0x8FC0 = 0x0040 ∨ h &&& 0x8FFC = 0x003C then .badnum t n crc pay
      else if h &&& 0x8FFF = 0x0000 then
        (if byteAt pkt 4 = 0 ∧ byteAt pkt 5 = 0 then .blank t crc pay else .data0 t crc pay)
      else if h &&& 0x8FFF = 0x0014 then .data20 t crc pay
      else if h &&& 0x8FFF = 0x003B then .data59 t crc pay
      else .data t (h.extractLsb' 0 6) crc pay

/-- A few words of the opcode table decode to their rows (R109, R112, R113, R114, R117; log 12). -/
def Obligations.TableWordsDecodeToTheirRows : Prop :=
  decodeTableWord 16 0x8003 = some (.fatal 0 3 0 (List.replicate 160 0)) ∧
    decodeTableWord 16 0x003C = some (.badnum 0 60 0 (List.replicate 160 0)) ∧
    decodeTableWord 16 0x0014 = some (.data20 0 0 (List.replicate 160 0)) ∧
    decodeTableWord 3 4 = some .cmdSnapshot ∧
    decodeTableWord 5 0x16 = some .scConsume ∧
    decodeTableWord 9 0x140 = some .pvresInvalidPacketNumber ∧
    decodeTableWord 4 0xA = some .faresOutOfOrderSegment

/-! ### The step -/

/-- A step runs the decoded instruction: where the next line of the schedule is bytes that decode to `i` under the
padding registers, `step` is `exec i` on the state with that line taken; and a word of the opcode table placed with
`withFetchWord` runs next (R10, R76; logs 1, 2). -/
def Obligations.StepRunsTheDecodedInstruction : Prop :=
  (∀ (s : State) (c : Code) (rest : List Line) (i : Instr),
    s.env.sched = .code c :: rest → decode s.regs.padMask s.regs.padPattern c = .ok i →
      step s = exec i { s with env.sched := rest }) ∧
  ∀ (s : State) (nbits w : Nat) (i : Instr),
    s.regs.padMask = Config.padMaskDefault → s.regs.padPattern = Config.padPatternDefault →
      decodeTableWord nbits w = some i → step (s.withFetchWord nbits w) = exec i s

/-- A step of the producer or of the consumer performs the operation its sequencer stands at; where only another agent
can move it, nothing happens (R30, R198, R240; log 1). -/
def Obligations.SequencersPerformTheStepTheyStandAt : Prop :=
  ∀ (s : State) (rest : List Line),
    let s' := { s with env.sched := rest }
    (s.env.sched = .producer :: rest →
      (s.prod.pState = .acq → s.prod.cancel = false → step s = exec .rbNextChunk s') ∧
      (s.prod.pState = .acq → s.prod.cancel = true → step s = exec (.spExit .cancel) s') ∧
      (s.prod.pState = .xfer → step s = exec .spTransfer s') ∧
      (s.prod.pState = .split → step s = exec .spSplit s') ∧
      (s.prod.pState = .idle ∨ s.prod.pState = .doneCancel ∨ s.prod.pState = .doneFail → step s = .next s')) ∧
    (s.env.sched = .consumer :: rest →
      (s.ctl.scState = .opConn → s.ctl.cmd = .opening → step s = exec .scOpen s') ∧
      (s.ctl.scState = .opConn → s.ctl.cmd = .snapshot → step s = exec .scSnapshot s') ∧
      (s.ctl.scState = .retr → step s = exec .scConsume s') ∧
      (s.ctl.scState = .rsJoin ∨ s.ctl.scState = .rsBackoff ∨ s.ctl.scState = .rsConn →
        step s = exec (.scResync .none) s') ∧
      (s.ctl.scState = .clJoin → step s = exec .scClose s') ∧
      (s.ctl.scState = .closed ∨ s.ctl.scState = .opened → step s = .next s'))

/-! ### PF and PV -/

/-- PF.MATCH compares the masked bytes, and a packet of class PAD is dropped; nothing but PF's output and the trace
changes (R105, R140; the output and the position traced when PF is driven alone, logs 7 and 21). -/
def Obligations.PaddingIsMatchedAndDropped : Prop :=
  ∀ s : State,
    (∀ b0 : Byte,
      let m := decide ((b0 &&& s.regs.padMask) = (s.regs.padPattern &&& s.regs.padMask))
      Completes (.pfMatch b0) s fun t =>
        t.out.pf = some m ∧ Traced s t (if m then [.pfDrop s.prod.curChunk s.prod.splitIdx] else []) ∧
          AllBut [.outPf, .trace] s t) ∧
    ∀ (hdr crc : BitVec 16) (pay : List Byte),
      Completes (.pad hdr crc pay) s fun t =>
        t.out.pf = some true ∧ Traced s t [.pfDrop s.prod.curChunk s.prod.splitIdx] ∧ AllBut [.outPf, .trace] s t

/-- PV.VALIDATE answers exactly one class for any bytes, decided by the header's bit 15 and bits 11:0 and the first two
payload bytes, and writes no state (R146; R141; the result stands on PV's output, log 21). -/
def Obligations.ValidatorClassifiesEveryPacket : Prop :=
  ∀ (pkt : List Byte) (s : State),
    let h := pktHdr pkt
    let n := (h &&& 0x0FFF).toNat
    let blank := n = 0 ∧ byteAt pkt 4 = 0 ∧ byteAt pkt 5 = 0
    Completes (.pvValidate pkt) s fun t =>
      ∃ r, t.out.pv = some r ∧ Traced s t [.validate r] ∧ AllBut [.outPv, .trace] s t ∧
        (r = .fatal .errorFlag ↔ h &&& 0x8000 ≠ 0) ∧
        (r = .fatal .invalidPacketNumber ↔ h &&& 0x8000 = 0 ∧ 59 < n) ∧
        (r = .discard ↔ h &&& 0x8000 = 0 ∧ blank) ∧
        ∀ m : BitVec 6, r = .sequenceNumber m ↔ h &&& 0x8000 = 0 ∧ m.toNat = n ∧ n ≤ 59 ∧ ¬ blank

/-- Two packets that agree in header bits 15 and 11:0 and in bytes 4 and 5 are validated alike (R148; header bits 14:12,
R110). -/
def Obligations.ValidatorReadsNoOtherBytes : Prop :=
  ∀ (p q : List Byte) (s : State),
    pktHdr p &&& 0x8FFF = pktHdr q &&& 0x8FFF → byteAt p 4 = byteAt q 4 → byteAt p 5 = byteAt q 5 →
      exec (.pvValidate p) s = exec (.pvValidate q) s

/-- Two packets that differ only in bytes 2 and 3 have the same effect, in any state and under any padding registers
(R102). -/
def Obligations.CrcNeverChangesTheResult : Prop :=
  ∀ (mask pattern : Byte) (p q : List Byte) (s : State),
    (∀ i, i ≠ 2 → i ≠ 3 → p[i]? = q[i]?) →
      exec (decodePacket mask pattern p) s = exec (decodePacket mask pattern q) s ∧
        exec (.pvValidate p) s = exec (.pvValidate q) s

/-! ### FA -/

/-- The sequence check of FA.ACCEPT: any number but `next(last_pn)`, and any above 59, gives
`SequenceError(OUT_OF_ORDER_PACKET)` and changes no register and no byte; `next(last_pn)` passes (R161, R167). -/
def Obligations.FaAcceptChecksTheSequence : Prop :=
  ∀ (s : State) (pn : BitVec 6) (pay : List Byte),
    (59 < pn.toNat ∨ pn.toNat ≠ nextPn s.fa.lastPn →
      Completes (.faAccept pn pay) s fun t =>
        t.out.fa = some (.sequenceError .outOfOrderPacket) ∧ Traced s t [.accept (.sequenceError .outOfOrderPacket)] ∧
          causeCode (causeOfDetail .outOfOrderPacket) = 3 ∧ AllBut [.outFa, .trace] s t) ∧
    (pn.toNat ≤ 59 → pn.toNat = nextPn s.fa.lastPn → pay.length = 160 → s.fa.segOrd.toNat ≤ 4 →
      Completes (.faAccept pn pay) s fun t => t.out.fa ≠ some (.sequenceError .outOfOrderPacket))

/-- FA.ACCEPT of a packet in sequence that is neither 20 nor 59: its payload is stored in its slot of SEGBUF, `last_pn`
is updated, the result is `Incomplete` (R162, R165). -/
def Obligations.FaAcceptStoresAPlainPacket : Prop :=
  ∀ (s : State) (pn : BitVec 6) (pay : List Byte),
    pay.length = 160 → pn.toNat ≤ 59 → pn.toNat = nextPn s.fa.lastPn → pn ≠ 20 → pn ≠ 59 →
      Completes (.faAccept pn pay) s fun t =>
        t.out.fa = some .incomplete ∧ t.fa.lastPn = some pn ∧ HoldsBytes .segbuf (pn.toNat * 160) pay t ∧
          SameBytesBut .segbuf (pn.toNat * 160) 160 s t ∧ Traced s t [.accept .incomplete] ∧
          AllBut [.lastPn, .segbuf, .outFa, .trace] s t

/-- FA.ACCEPT of packet 20 in sequence: slot 20 is stored in every case; then the ordinal nibble decides by R163's
table whether `seg_ord` is kept, adopted, or the packet rejected (R162, R163, R166). -/
def Obligations.FaAcceptReadsTheOrdinalAtTwenty : Prop :=
  ∀ (s : State) (pay : List Byte),
    s.fa.lastPn = some 19 → pay.length = 160 →
      let o := (byteAt pay 0).toNat / 16
      let so := s.fa.segOrd.toNat
      Completes (.faAccept 20 pay) s fun t =>
        HoldsBytes .segbuf 3200 pay t ∧ SameBytesBut .segbuf 3200 160 s t ∧
          AllBut [.lastPn, .segOrd, .segbuf, .outFa, .trace] s t ∧
          ∃ r, t.out.fa = some r ∧ Traced s t [.accept r] ∧
            (4 < o → r = .sequenceError .invalidSegmentOrdinal ∧ same .lastPn s t ∧ same .segOrd s t) ∧
            (1 ≤ o → o ≤ 4 → o ≠ so + 1 →
              r = .sequenceError .outOfOrderSegment ∧ same .lastPn s t ∧ same .segOrd s t) ∧
            (1 ≤ o → o ≤ 4 → o = so + 1 → r = .incomplete ∧ t.fa.lastPn = some 20 ∧ t.fa.segOrd.toNat = o) ∧
            (o = 0 → r = .incomplete ∧ t.fa.lastPn = some 20 ∧ same .segOrd s t)

/-- FA.ACCEPT of packet 59 in sequence: after the store, SEGBUF is copied whole to the region of `seg_ord` unless that
is 0, also after a pass with ordinal 0, and the frame is complete when it is 4 (R164, R177). -/
def Obligations.FaAcceptCopiesTheSegmentAtFiftyNine : Prop :=
  ∀ (s : State) (pay : List Byte),
    s.fa.lastPn = some 58 → pay.length = 160 → s.fa.segOrd.toNat ≤ 4 →
      let so := s.fa.segOrd.toNat
      let r : FaRes := if so = 4 then .complete else .incomplete
      Completes (.faAccept 59 pay) s fun t =>
        t.out.fa = some r ∧ Traced s t [.accept r] ∧ t.fa.lastPn = some 59 ∧ HoldsBytes .segbuf 9440 pay t ∧
          SameBytesBut .segbuf 9440 160 s t ∧ (so = 0 → same .framebuf s t) ∧
          (1 ≤ so →
            (∀ a, a < 9600 → readByte t .framebuf ((so - 1) * 9600 + a) = readByte t .segbuf a) ∧
              SameBytesBut .framebuf ((so - 1) * 9600) 9600 s t) ∧
          AllBut [.lastPn, .segbuf, .framebuf, .outFa, .trace] s t

/-- FA.RESET clears `last_pn` and `seg_ord` and nothing else, and doing it twice leaves the state that doing it once
leaves, but for the trace (R168, R171). -/
def Obligations.FaResetClearsThePositionIdempotently : Prop :=
  ∀ s : State,
    Completes .faReset s fun t =>
      t.fa.lastPn = none ∧ t.fa.segOrd = 0 ∧ Traced s t [.faReset] ∧ AllBut [.lastPn, .segOrd, .trace] s t ∧
        Completes .faReset t fun u => AllBut [.trace] t u

/-- FA.WRITE_IMAGE writes pixel `j` of frame slot `k` to row `k div 2`, column `(k mod 2) * 80 + j`, that is, word `w`
is bytes `2w` and `2w + 1` of FRAMEBUF for all 19200 words, and nothing of the block changes (R67, R108, R169). -/
def Obligations.WriteImageMapsEverySlot : Prop :=
  ∀ s : State,
    Completes .faWriteImage s fun t =>
      (∀ k j, k < 240 → j < 80 →
        readDest t (k / 2 * 160 + (k % 2 * 80 + j)) =
          be16 (readByte s .framebuf (k * 160 + 2 * j)) (readByte s .framebuf (k * 160 + 2 * j + 1))) ∧
        ImageWritten s t ∧ (∀ a, 19200 ≤ a → readDest t a = readDest s a) ∧ Traced s t [.writeImage] ∧
        AllBut [.dest, .trace] s t

/-! ### Packets and results in a retrieval -/

/-- A data packet does to FA what FA.ACCEPT does; then SC treats the result: `Incomplete` changes nothing more, a
`SequenceError` in `S_RETR` enters the resynchronisation, `Complete` in `S_RETR` writes the image and ends the retrieval
with `OK` (R145, R234, R270; outside `S_RETR` only the result stands, log 13). -/
def Obligations.DataPacketIsAcceptedAndTreated : Prop :=
  ∀ (i : Instr) (n : BitVec 6) (pay : List Byte) (s : State),
    dataPacket i = some (n, pay) → pay.length = 160 → s.fa.segOrd.toNat ≤ 4 →
      Completes (.faAccept n pay) s fun u =>
        ∃ r, u.out.fa = some r ∧
          Completes i s fun t =>
            ((∀ m p, i ≠ .pvresSequenceNumber m p) → t.out.pv = some (.sequenceNumber n)) ∧
              (r = .incomplete → AllBut [.outPv, .trace] u t) ∧
              (∀ d, r = .sequenceError d → s.ctl.scState = .retr →
                Trapped (causeOfDetail d) t ∧ AllBut (.outPv :: trapParts) u t) ∧
              (r = .complete → s.ctl.scState = .retr → s.ctl.cmd = .retrieveFrame ∨ s.ctl.cmd = .snapshot →
                ImageWritten u t ∧ EndedOpen .ok u t ∧ (∀ a, 19200 ≤ a → readDest t a = readDest s a) ∧
                  AllBut (.outPv :: .dest :: endParts) u t) ∧
              (s.ctl.scState ≠ .retr → AllBut [.outPv, .trace] u t)

/-- A packet of class FATAL or BADNUM, and every result that reports a fault, enters the resynchronisation with its cause
when SC is in `S_RETR`: `CAUSE`, `cancel` and `sc_state` are written and nothing else but PV's output (R142, R143, R234,
R270, R271, R274; the records in the order of the pseudocode's calls, log 23). -/
def Obligations.FaultTakesTheTrap : Prop :=
  ∀ (i : Instr) (c : Cause) (s : State),
    faultCause i = some c → s.ctl.scState = .retr →
      Completes i s fun t =>
        Trapped c t ∧ t.out.pv = pvAfter i s ∧
          Traced s t ((classResult i).toList.map Event.validate ++ [.resync c, .spCancel]) ∧
          AllBut (.outPv :: trapParts) s t

/-- A BLANK packet and the results `Discard` and `Incomplete` change nothing but PV's output: FA is not called, SC goes
on (R144, R234). -/
def Obligations.BlankAndIncompleteChangeNothing : Prop :=
  ∀ (i : Instr) (s : State),
    (∃ t crc pay, i = .blank t crc pay) ∨ i = .pvresDiscard ∨ i = .faresIncomplete →
      Completes i s fun t =>
        t.out.pv = pvAfter i s ∧ Traced s t ((classResult i).toList.map Event.validate) ∧
          AllBut [.outPv, .trace] s t

/-- FA's result `Complete` in `S_RETR` writes the image to DEST and ends the retrieval with `OK`: RETRIEVE_FRAME is
answered in `S_OPEN`, SNAPSHOT goes to its closing part (R233, R234, R240; the records in the order of the pseudocode's
calls, log 23). -/
def Obligations.CompleteWritesTheImageAndEnds : Prop :=
  ∀ s : State,
    s.ctl.scState = .retr → s.ctl.cmd = .retrieveFrame ∨ s.ctl.cmd = .snapshot →
      Completes .faresComplete s fun t =>
        ImageWritten s t ∧ (∀ a, 19200 ≤ a → readDest t a = readDest s a) ∧ EndedOpen .ok s t ∧
          Traced s t [.writeImage, if s.ctl.cmd = .retrieveFrame then .retrieveCmd .ok else .spCancel] ∧
          AllBut (.dest :: endParts) s t

/-- The model's choice (log 13, from R235's and R275's "faults are raised only by SC.CONSUME in S_RETR"): a fault or
`Complete` handed to the controller outside `S_RETR` starts nothing. -/
def Obligations.OutsideRetrievalNoFaultIsRaised : Prop :=
  ∀ (i : Instr) (s : State),
    faultCause i ≠ none ∨ i = .faresComplete → s.ctl.scState ≠ .retr →
      Completes i s fun t => t.out.pv = pvAfter i s ∧ AllBut [.outPv, .trace] s t

/-! ### RB, SP and FQ -/

/-- RB.NEXT_CHUNK hands the chunk at `wr_idx` to the producer and advances `wr_idx` modulo `N`, when nothing references
the chunk and the producer is not cancelled (R190, R198). -/
def Obligations.NextChunkHandsOutTheWriteIndex : Prop :=
  ∀ s : State,
    s.prod.pState = .acq → s.prod.cancel = false → refGet s s.ring.wrIdx = 0 →
      Completes .rbNextChunk s fun t =>
        t.prod.curChunk = s.ring.wrIdx ∧ t.ring.wrIdx = (s.ring.wrIdx + 1) % s.cfg.n ∧ t.prod.pState = .xfer ∧
          Traced s t [.nextChunk s.ring.wrIdx] ∧ AllBut [.curChunk, .wrIdx, .pState, .trace] s t

/-- SP.TRANSFER with the answer `ok(D)`: the chunk holds `D`, nothing else of ARENA changes, and the producer starts to
split; `cancel` is not sampled (R61, R191; a byte the script does not give is a free draw, log 8). -/
def Obligations.TransferFillsTheChunk : Prop :=
  ∀ s : State,
    s.prod.pState = .xfer → s.prod.curChunk < s.cfg.n → (answerOf s).ok = true →
      let bytes := s.cfg.p * 164
      Completes .spTransfer s fun t =>
        ((answerOf s).data.length = bytes → HoldsBytes .arena (s.prod.curChunk * bytes) (answerOf s).data t) ∧
          SameBytesBut .arena (s.prod.curChunk * bytes) bytes s t ∧ t.prod.splitIdx = 0 ∧ t.prod.pState = .split ∧
          t.out.requests = s.out.requests ++ [.transfer bytes] ∧ Drawn s t ∧
          Traced s t [.xfer s.prod.curChunk true] ∧
          AllBut [.arena, .splitIdx, .pState, .trIn, .draws, .requests, .trace] s t

/-- SP.TRANSFER with the answer `fail`, which is SP.EXIT with the reason of a transfer failure: the producer ends in
`P_DONE_FAIL`; of ARENA at most the chunk changes, and FQ does not (R191, R198; logs 9 and 15). That EV_XFER stands
before EV_SP_EXIT in the trace is the model's choice: R191's pseudocode does not place it (log 23). -/
def Obligations.FailedTransferEndsTheProducer : Prop :=
  ∀ (s : State) (i : Instr),
    i = .spTransfer ∨ i = .spExit .transferFailure →
      s.prod.pState = .xfer → s.prod.curChunk < s.cfg.n → (answerOf s).ok = false →
        let bytes := s.cfg.p * 164
        Completes i s fun t =>
          SameBytesBut .arena (s.prod.curChunk * bytes) bytes s t ∧ t.prod.pState = .doneFail ∧
            t.out.requests = s.out.requests ++ [.transfer bytes] ∧ Drawn s t ∧
            Traced s t [.xfer s.prod.curChunk false, .spExit .transferFailure] ∧
            AllBut [.arena, .pState, .trIn, .draws, .requests, .trace] s t

/-- SP.SPLIT at the end of the chunk goes back to `P_ACQ`; at a padding slice it advances `split_idx` and queues
nothing, cancelled or not (R192, R198). -/
def Obligations.SplitEndsAndDropsPadding : Prop :=
  ∀ s : State,
    s.prod.pState = .split →
      (s.prod.splitIdx = s.cfg.p →
        Completes .spSplit s fun t =>
          t.prod.pState = .acq ∧ Traced s t [.splitDone s.prod.curChunk] ∧ AllBut [.pState, .trace] s t) ∧
      (s.prod.splitIdx < s.cfg.p → s.prod.curChunk < s.cfg.n → ¬ SliceKept s →
        Completes .spSplit s fun t =>
          t.prod.splitIdx = s.prod.splitIdx + 1 ∧ t.out.pf = some true ∧
            Traced s t [.pfDrop s.prod.curChunk s.prod.splitIdx] ∧ AllBut [.splitIdx, .outPf, .trace] s t)

/-- SP.SPLIT at a slice that is not padding, not cancelled and with room in FQ, enqueues the slice's descriptor and
advances `split_idx` (R192, R193, R198). -/
def Obligations.SplitEnqueuesTheSlice : Prop :=
  ∀ s : State,
    s.prod.pState = .split → s.prod.splitIdx < s.cfg.p → s.prod.curChunk < s.cfg.n → SliceKept s →
      s.prod.cancel = false → s.queue.count < s.cfg.qcap → s.queue.head < s.cfg.qcap →
        s.queue.tail = (s.queue.head + s.queue.count) % s.cfg.qcap →
          Completes .spSplit s fun t =>
            Enqueued ⟨s.prod.curChunk, s.prod.splitIdx⟩ s t ∧ t.prod.splitIdx = s.prod.splitIdx + 1 ∧
              t.out.pf = some false ∧ Traced s t [.enq s.prod.curChunk s.prod.splitIdx] ∧
              AllBut [.queue, .refcnt, .splitIdx, .outPf, .trace] s t

/-- The producer terminates where it samples `cancel`: in `P_ACQ`, and at a slice that is not padding, also when FQ has
room; it enqueues nothing (R197, R198). -/
def Obligations.CancelEndsTheProducer : Prop :=
  ∀ s : State,
    s.prod.cancel = true →
      (s.prod.pState = .acq →
        Completes (.spExit .cancel) s fun t =>
          t.prod.pState = .doneCancel ∧ Traced s t [.spExit .cancel] ∧ AllBut [.pState, .trace] s t) ∧
      ∀ i : Instr, i = .spSplit ∨ i = .spExit .cancel →
        s.prod.pState = .split → s.prod.splitIdx < s.cfg.p → s.prod.curChunk < s.cfg.n → SliceKept s →
          Completes i s fun t =>
            t.prod.pState = .doneCancel ∧ t.out.pf = some false ∧ Traced s t [.spExit .cancel] ∧
              AllBut [.pState, .outPf, .trace] s t

/-- FQ.ENQ appends the descriptor and counts its chunk's reference, when FQ has room (R28, R193). -/
def Obligations.EnqueueAppendsTheDescriptor : Prop :=
  ∀ (s : State) (chunk slot : BitVec 32),
    chunk.toNat < s.cfg.n → slot.toNat < s.cfg.p → s.queue.count < s.cfg.qcap → s.queue.head < s.cfg.qcap →
      s.queue.tail = (s.queue.head + s.queue.count) % s.cfg.qcap →
        Completes (.fqEnq chunk slot) s fun t =>
          Enqueued ⟨chunk.toNat, slot.toNat⟩ s t ∧ Traced s t [.enq chunk.toNat slot.toNat] ∧
            AllBut [.queue, .refcnt, .trace] s t

/-- FQ.DEQ takes the oldest descriptor and releases its chunk's reference, when FQ is not empty (R28, R73, R194). -/
def Obligations.DequeueTakesTheOldest : Prop :=
  ∀ s : State,
    0 < s.queue.count → s.queue.head < s.cfg.qcap →
      Completes .fqDeq s fun t =>
        ∃ d, Dequeued d s t ∧ Traced s t [.deq d.chunk d.slot] ∧ (∀ e, qGet t e = qGet s e) ∧
          AllBut [.queue, .refcnt, .outDeq, .trace] s t

/-- SP.CANCEL sets the signal; FQ.FLUSH empties the queue and idles a producer that is not running; SP.START restarts an
idle producer on an open transport at chunk 0 (R195, R196, R197). -/
def Obligations.CancelFlushAndStart : Prop :=
  ∀ s : State,
    (Completes .spCancel s fun t =>
      t.prod.cancel = true ∧ Traced s t [.spCancel] ∧ AllBut [.cancel, .trace] s t) ∧
    (s.prod.pState = .idle ∨ s.prod.pState = .doneCancel ∨ s.prod.pState = .doneFail →
      Completes .fqFlush s fun t =>
        QueueCleared s t ∧ t.prod.pState = .idle ∧ Traced s t [.flush] ∧
          AllBut [.queue, .refcnt, .pState, .trace] s t) ∧
    (s.prod.pState = .idle → s.ctl.trOpen = true →
      Completes .spStart s fun t => Started s t ∧ Traced s t [.spStart] ∧ AllBut startParts s t)

/-! ### SC -/

/-- The four commands accepted at a ready port in the states that allow them (R231, R232, R233, R236, R240). -/
def Obligations.CommandsAreAccepted : Prop :=
  ∀ s : State,
    s.ctl.cmd = .none →
      (s.ctl.scState = .closed →
        (Completes .cmdOpen s fun t =>
          t.ctl.cmd = .opening ∧ t.ctl.scState = .opConn ∧
            t.out.requests = s.out.requests ++ [.connect s.cfg.connectArgs] ∧
            AllBut [.cmd, .scState, .requests] s t) ∧
        Completes .cmdSnapshot s fun t =>
          t.ctl.cmd = .snapshot ∧ t.ctl.snapPhase = .opening ∧ t.ctl.snapStatus = .ok ∧ t.ctl.scState = .opConn ∧
            t.out.requests = s.out.requests ++ [.connect s.cfg.connectArgs] ∧
            AllBut [.cmd, .snapPhase, .snapStatus, .scState, .requests] s t) ∧
      (s.ctl.scState = .opened →
        (Completes .cmdClose s fun t =>
          t.ctl.cmd = .closing ∧ t.prod.cancel = true ∧ t.ctl.scState = .clJoin ∧ Traced s t [.spCancel] ∧
            AllBut [.cmd, .cancel, .scState, .trace] s t) ∧
        Completes .cmdRetrieveFrame s fun t =>
          t.ctl.cmd = .retrieveFrame ∧ t.fa.lastPn = none ∧ t.fa.segOrd = 0 ∧ t.tim.dlArmed = true ∧
            t.tim.dlFired = false ∧ t.ctl.scState = .retr ∧ Traced s t [.faReset] ∧
            AllBut [.cmd, .lastPn, .segOrd, .dlArmed, .dlFired, .scState, .trace] s t)

/-- The transport's answer to the connect of OPEN and of SNAPSHOT: on `ok` the producer starts, OPEN answers `OK` in
`S_OPEN` and SNAPSHOT enters its retrieval; on `fail` both answer `ERR_TRANSPORT` in `S_CLOSED` (R231, R236, R240;
the records in the order of the pseudocode's calls, log 23). -/
def Obligations.ConnectOpensTheSession : Prop :=
  ∀ s : State,
    s.ctl.scState = .opConn →
      (s.ctl.cmd = .opening →
        ((answerOf s).ok = true →
          Completes .scOpen s fun t =>
            t.ctl.trOpen = true ∧ Started s t ∧ t.ctl.scState = .opened ∧ Answered .ok s t ∧ Drawn s t ∧
              Traced s t [.spStart, .openCmd .ok] ∧
              AllBut (.trOpen :: .scState :: .trIn :: .draws :: startParts ++ answerParts) s t) ∧
        ((answerOf s).ok = false →
          Completes .scOpen s fun t =>
            t.ctl.scState = .closed ∧ Answered .errTransport s t ∧ Drawn s t ∧
              Traced s t [.openCmd .errTransport] ∧ AllBut (.scState :: .trIn :: .draws :: answerParts) s t)) ∧
      (s.ctl.cmd = .snapshot →
        ((answerOf s).ok = true →
          Completes .scSnapshot s fun t =>
            t.ctl.trOpen = true ∧ Started s t ∧ t.ctl.snapPhase = .retr ∧ t.fa.lastPn = none ∧ t.fa.segOrd = 0 ∧
              t.tim.dlArmed = true ∧ t.tim.dlFired = false ∧ t.ctl.scState = .retr ∧ Drawn s t ∧
              Traced s t [.spStart, .faReset] ∧
              AllBut (.trOpen :: .snapPhase :: .lastPn :: .segOrd :: .dlArmed :: .dlFired :: .scState :: .trIn ::
                .draws :: startParts) s t) ∧
        ((answerOf s).ok = false →
          Completes .scSnapshot s fun t =>
            t.ctl.scState = .closed ∧ Answered .errTransport s t ∧ Drawn s t ∧
              Traced s t [.snapshotCmd .errTransport] ∧
              AllBut (.scState :: .trIn :: .draws :: answerParts) s t))

/-- The closing step, once the producer has terminated: the transport is closed, FQ flushed, and CLOSE answers `OK`,
SNAPSHOT its stored status; FA keeps its values (R232, R236; the records in the order of the pseudocode's calls,
log 23). -/
def Obligations.ClosingStepReleasesTheTransport : Prop :=
  ∀ (i : Instr) (s : State),
    ClosingTurn i s → s.ctl.scState = .clJoin → s.ctl.cmd = .closing ∨ s.ctl.cmd = .snapshot →
      s.prod.pState = .idle ∨ s.prod.pState = .doneCancel ∨ s.prod.pState = .doneFail →
        let st := if s.ctl.cmd = .closing then Status.ok else s.ctl.snapStatus
        Completes i s fun t =>
          t.out.requests = s.out.requests ++ [.close] ∧ t.ctl.trOpen = false ∧ QueueCleared s t ∧
            t.prod.pState = .idle ∧ t.ctl.scState = .closed ∧ Answered st s t ∧
            Traced s t [.flush, if s.ctl.cmd = .closing then .closeCmd st else .snapshotCmd st] ∧
            AllBut (.requests :: .trOpen :: .queue :: .refcnt :: .pState :: .scState :: answerParts) s t

/-- A command in a state that does not allow it, or a reserved code, is answered `ERR_USAGE` and changes nothing but
`STATUS` (R241). -/
def Obligations.UsageErrorsChangeOnlyStatus : Prop :=
  ∀ (i : Instr) (code : BitVec 3) (s : State),
    i = commandOfCode code ∨ i = .scReject code → s.ctl.cmd = .none →
      ¬ ((code = 1 ∧ s.ctl.scState = .closed) ∨ (code = 2 ∧ s.ctl.scState = .opened) ∨
        (code = 3 ∧ s.ctl.scState = .opened) ∨ (code = 4 ∧ s.ctl.scState = .closed)) →
        Completes i s fun t =>
          t.stat.status = .errUsage ∧ t.out.answers = s.out.answers ++ [.errUsage] ∧ Traced s t [.badCmd code] ∧
            AllBut [.status, .answers, .trace] s t

/-- While a command is in progress the port is not ready and a command presented has no effect (R239; the line of the
schedule is used up, log 18). -/
def Obligations.PortNotReadyKeepsCommandsOut : Prop :=
  ∀ (i : Instr) (code : BitVec 3) (s : State),
    i = commandOfCode code ∨ i = .scReject code → s.ctl.cmd ≠ .none → exec i s = .next s

/-- A turn of the retrieval loop with the deadline fired ends the command with `ERR_TIMEOUT`, whatever is queued; there
is no resync (R234, R240, R278). That EV_CONSUME stands first in the turn's records is the model's choice: R234 does not
place it (log 23). -/
def Obligations.FiredDeadlineEndsTheRetrieval : Prop :=
  ∀ (i : Instr) (s : State),
    RetrievalTurn i s → s.ctl.scState = .retr → s.ctl.cmd = .retrieveFrame ∨ s.ctl.cmd = .snapshot →
      s.tim.dlFired = true →
        Completes i s fun t =>
          EndedOpen .errTimeout s t ∧
            Traced s t [.consume .timeout,
              if s.ctl.cmd = .retrieveFrame then .retrieveCmd .errTimeout else .spCancel] ∧
            AllBut endParts s t

/-- A turn of the retrieval loop that finds the producer failed enters the resynchronisation with `PIPELINE_STOPPED`,
whatever is queued (R234, R270). That EV_CONSUME stands before EV_RESYNC in the turn's records is the model's choice:
R234 and R271 do not place it (log 23); that EV_SP_CANCEL follows EV_RESYNC is read from R235's pseudocode (log 23). -/
def Obligations.StoppedPipelineTakesTheTrap : Prop :=
  ∀ (i : Instr) (s : State),
    RetrievalTurn i s → s.ctl.scState = .retr → s.tim.dlFired = false → s.prod.pState = .doneFail →
      Completes i s fun t =>
        Trapped .pipelineStopped t ∧
          Traced s t [.consume .pipelineStopped, .resync .pipelineStopped, .spCancel] ∧ AllBut trapParts s t

/-- A turn of the retrieval loop with a packet queued dequeues its descriptor and does with the 164 bytes it names what
the packet's class says, in the same step (R109, R141, R194, R234). That EV_CONSUME stands before EV_DEQ in the turn's
records is the model's choice: R234 and R271 do not place it (log 23). -/
def Obligations.PacketTurnRunsThePacketsClass : Prop :=
  ∀ (i : Instr) (s : State),
    RetrievalTurn i s → s.ctl.scState = .retr → s.tim.dlFired = false → s.prod.pState ≠ .doneFail →
      0 < s.queue.count → s.queue.head < s.cfg.qcap → s.fa.segOrd.toNat ≤ 4 →
        (qGet s s.queue.head).chunk < s.cfg.n → (qGet s s.queue.head).slot < s.cfg.p →
          let d := qGet s s.queue.head
          let pkt := (List.range 164).map fun k => readByte s .arena (d.chunk * (s.cfg.p * 164) + d.slot * 164 + k)
          ∃ u t, Dequeued d s u ∧ Traced s u [.consume .packet, .deq d.chunk d.slot] ∧
            AllBut [.queue, .refcnt, .outDeq, .trace] s u ∧ exec i s = .next t ∧ exec (decodePv pkt) u = .next t

/-- SC.RESYNC with a cause is the entry of a resynchronisation in `S_RETR` (R235, R274; EV_SP_CANCEL after EV_RESYNC, the
order of the pseudocode's calls, log 23). -/
def Obligations.ResyncEntryWritesTheCause : Prop :=
  ∀ (c : Cause) (s : State),
    c ≠ .none → s.ctl.scState = .retr →
      Completes (.scResync c) s fun t =>
        Trapped c t ∧ Traced s t [.resync c, .spCancel] ∧ AllBut trapParts s t

/-- The steps of a resynchronisation after its entry: the join closes, flushes, resets FA and starts the backoff; the
end of the backoff requests the connect; a successful connect restarts the producer and returns to `S_RETR`; a failed one
ends the command with `ERR_REOPEN` in `S_CLOSED` (R235, R240, R274, R275; the records in the order of the pseudocode's
calls, log 23). -/
def Obligations.ResyncStepsInOrder : Prop :=
  ∀ (i : Instr) (s : State),
    ResyncTurn i s → s.ctl.cmd = .retrieveFrame ∨ s.ctl.cmd = .snapshot →
      (s.ctl.scState = .rsJoin →
        s.prod.pState = .idle ∨ s.prod.pState = .doneCancel ∨ s.prod.pState = .doneFail →
          Completes i s fun t =>
            t.out.requests = s.out.requests ++ [.close] ∧ t.ctl.trOpen = false ∧ QueueCleared s t ∧
              t.prod.pState = .idle ∧ t.fa.lastPn = none ∧ t.fa.segOrd = 0 ∧ t.tim.boRunning = true ∧
              t.ctl.scState = .rsBackoff ∧ Traced s t [.flush, .faReset] ∧
              AllBut [.requests, .trOpen, .queue, .refcnt, .pState, .lastPn, .segOrd, .boRunning, .scState, .trace]
                s t) ∧
      (s.ctl.scState = .rsBackoff → s.tim.boRunning = false →
        Completes i s fun t =>
          t.out.requests = s.out.requests ++ [.connect s.cfg.connectArgs] ∧ t.ctl.scState = .rsConn ∧
            AllBut [.requests, .scState] s t) ∧
      (s.ctl.scState = .rsConn → (answerOf s).ok = true →
        Completes i s fun t =>
          t.ctl.trOpen = true ∧ Started s t ∧ t.ctl.scState = .retr ∧ Drawn s t ∧
            Traced s t [.spStart, .resyncEnd true] ∧
            AllBut (.trOpen :: .scState :: .trIn :: .draws :: startParts) s t) ∧
      (s.ctl.scState = .rsConn → (answerOf s).ok = false →
        Completes i s fun t =>
          t.tim.dlArmed = false ∧ t.ctl.scState = .closed ∧ Answered .errReopen s t ∧ Drawn s t ∧
            (s.ctl.cmd = .retrieveFrame → same .snapStatus s t) ∧
            (s.ctl.cmd = .snapshot → t.ctl.snapStatus = .errReopen) ∧
            Traced s t [.resyncEnd false,
              if s.ctl.cmd = .retrieveFrame then .retrieveCmd .errReopen else .snapshotCmd .errReopen] ∧
            AllBut (.dlArmed :: .scState :: .snapStatus :: .trIn :: .draws :: answerParts) s t)

/-- The timer events: TM.FIRE sets `dl_fired` of an armed deadline that has not fired, TM.BACKOFF_END ends a running
backoff; neither writes anything else (R237, R238, R280). -/
def Obligations.TimerEventsSetTheirFlags : Prop :=
  ∀ s : State,
    (s.tim.dlArmed = true → s.tim.dlFired = false →
      Completes .tmFire s fun t => t.tim.dlFired = true ∧ Traced s t [.dlFire] ∧ AllBut [.dlFired, .trace] s t) ∧
    (s.tim.boRunning = true →
      Completes .tmBackoffEnd s fun t =>
        t.tim.boRunning = false ∧ Traced s t [.boEnd] ∧ AllBut [.boRunning, .trace] s t)

/-- RESET puts every register at the value of R44's table from any state, and the initial state of every build has those
values; DEST is not affected (R44, R310; the durations 10 s and 300 ms as 10000 and 300: the unit is the model's choice,
log 6; the build `State.reset` stands for, log 5; the build, the schedule and what was observed stay, log 20). -/
def Obligations.ResetGivesTheTablesValues : Prop :=
  (∀ c : Params, (State.resetOf c).cfg = c ∧ ResetValues (State.resetOf c)) ∧ State.reset = State.resetOf Config.build ∧
    ∀ s : State,
      Completes .reset s fun t =>
        ResetValues t ∧
          ∀ p ∈ ([.dest, .cfg, .sched, .trIn, .draws, .outPf, .outPv, .outFa, .outDeq, .answers, .requests, .trace] :
            List Part), same p s t

/-- A step that is not enabled changes nothing: the waits of the producer, of the consumer and of the timers (R10, R190,
R192, R193, R194, R195, R234, R235, R237, R238; log 10). -/
def Obligations.WaitingStepsChangeNothing : Prop :=
  ∀ s : State,
    (s.prod.pState = .acq → refGet s s.ring.wrIdx ≠ 0 → exec .rbNextChunk s = .next s) ∧
    (s.prod.pState = .split → s.prod.splitIdx < s.cfg.p → s.prod.curChunk < s.cfg.n → SliceKept s →
      s.prod.cancel = false → s.queue.count = s.cfg.qcap → exec .spSplit s = .next s) ∧
    (∀ c d, s.queue.count = s.cfg.qcap → exec (.fqEnq c d) s = .next s) ∧
    (s.queue.count = 0 → exec .fqDeq s = .next s) ∧
    (running s = true → exec .fqFlush s = .next s) ∧
    (s.ctl.scState = .retr → s.tim.dlFired = false → s.prod.pState ≠ .doneFail → s.queue.count = 0 →
      exec .scConsume s = .next s) ∧
    (s.ctl.scState = .rsJoin → running s = true → exec (.scResync .none) s = .next s) ∧
    (s.ctl.scState = .rsBackoff → s.tim.boRunning = true → exec (.scResync .none) s = .next s) ∧
    (s.ctl.scState = .clJoin → running s = true → exec .scClose s = .next s) ∧
    (s.tim.dlArmed = false ∨ s.tim.dlFired = true → exec .tmFire s = .next s) ∧
    (s.tim.boRunning = false → exec .tmBackoffEnd s = .next s)

/-! ### The whole machine -/

/-- The invariants of R45 hold after reset, in every build. -/
def Obligations.InvariantsHoldAtReset : Prop := Inv State.reset ∧ ∀ c : Params, Inv (State.resetOf c)

/-- Every step of the block's agents keeps the invariants of R45, from every state that has them. -/
def Obligations.EveryStepKeepsTheInvariants : Prop := ∀ s t : State, Inv s → step s = .next t → Inv t

/-- No step of an agent stops: every address the block forms is inside its memory and every packet has an effect; only a
write of the host outside its own DEST faults (R202, R270; log 16). -/
def Obligations.AgentStepsNeverStop : Prop :=
  ∀ s : State,
    Inv s →
      (∃ t, step s = .next t) ∨
        ∃ a v, (nextLine s).1 = .write (.dest a v) ∧ 19200 ≤ a ∧ step s = .fault .outsideDest

/-- Whatever the schedule drives, units on their own included, every store keeps its canonical form and its bounds and
FA keeps its invariants (R45 items 3 and 4, R60, R172, R173). -/
def Obligations.StoresAndAssemblerKeepTheirForm : Prop :=
  ∀ s t : State, MemInv s → FaInv s → step s = .next t → MemInv t ∧ FaInv t

/-- No stale byte is left in FRAMEBUF at `Complete` (R175). From any two states whose FA is at its reset position, whatever
their buffers hold, the same packets have the same results, and once `Complete` is among them the two FRAMEBUFs are equal
byte for byte: nothing that stood in SEGBUF or FRAMEBUF before the reset of FA is left. Apart from that, under FA's
invariants, which a state with empty buffers and a reset position has, every byte of FRAMEBUF has been written since
power-on when FA.ACCEPT answers `Complete`; this second part alone does not say when. -/
def Obligations.CompleteLeavesNoStaleByte : Prop :=
  (∀ (s t : State) (ps : List (BitVec 6 × List Byte)),
    s.fa.lastPn = none → s.fa.segOrd = 0 → t.fa.lastPn = none → t.fa.segOrd = 0 → (∀ p ∈ ps, p.2.length = 160) →
      ∃ u v rs, acceptAll ps s = some (u, rs) ∧ acceptAll ps t = some (v, rs) ∧
        (.complete ∈ rs → ∀ a, a < 38400 → readByte u .framebuf a = readByte v .framebuf a)) ∧
  (∀ s : State, s.fa = Fa.reset → FaInv s) ∧
    ∀ (s t : State) (pn : BitVec 6) (pay : List Byte),
      FaInv s → pay.length = 160 → exec (.faAccept pn pay) s = .next t → t.out.fa = some .complete →
        ∀ a, a < 38400 → written t .framebuf a = true

/-- A whole frame: from a reset position, 240 packets in order whose packets 20 carry the ordinals 1 to 4 give 239 times
`Incomplete` and then `Complete`, leave payload `k` in frame slot `k`, and FA.WRITE_IMAGE then shows pixel `j` of payload
`k` at row `k div 2`, column `(k mod 2) * 80 + j` (R174, R176). -/
def Obligations.WholeFrameIsReassembled : Prop :=
  ∀ (s : State) (pays : Nat → List Byte),
    s.fa.lastPn = none → s.fa.segOrd = 0 → (∀ k, k < 240 → (pays k).length = 160) →
      (∀ o, o < 4 → (byteAt (pays (60 * o + 20)) 0).toNat / 16 = o + 1) →
        ∃ t, acceptAll (framePackets pays) s = some (t, List.replicate 239 .incomplete ++ [.complete]) ∧
          t.fa.lastPn = some 59 ∧ t.fa.segOrd = 4 ∧ (∀ k, k < 240 → HoldsBytes .framebuf (k * 160) (pays k) t) ∧
          Completes .faWriteImage t fun u =>
            ∀ k j, k < 240 → j < 80 → readDest u (pixelAddr (k % 2 * 80 + j) (k / 2)) = payPix (pays k) j

/-- The trace records change no state and no rule reads them: without TRACE every instruction does the same (R285). -/
def Obligations.TraceInfluencesNothing : Prop :=
  ∀ (i : Instr) (s t : State), exec i s = .next t → exec i (quiet s) = .next (quiet t)

/-- A host's write of a configuration register stores it while the session is closed, and the register reads back what
was written; in every other state the write changes nothing. No other step changes these registers, but for RESET, which
puts the build's values (R323; R36, R310; such a write is a line of the schedule, log 26; durations are numbers of
milliseconds, log 6). -/
def Obligations.ConfigurationChangesOnlyWhenClosed : Prop :=
  (∀ (s : State) (w : HostWrite) (r : HostReg) (p : Part) (v : Nat),
    (nextLine s).1 = .write w → configWrite w = some (r, p, v) →
      (s.ctl.scState = .closed →
        ∃ t, step s = .next t ∧ hostRead t r = v ∧ AllBut [p] (nextLine s).2 t ∧ AllBut [p, .sched, .draws] s t) ∧
      (s.ctl.scState ≠ .closed → step s = .next (nextLine s).2)) ∧
  ∀ s t : State,
    step s = .next t →
      t.regs = s.regs ∨
        (s.ctl.scState = .closed ∧ ∃ w, (nextLine s).1 = .write w ∧ configWrite w ≠ none) ∨
        (fetch (nextLine s).2 (nextLine s).1 = .run .reset ∧ t.regs = Regs.reset s.cfg)

/-- The block writes DEST only as the image of FRAMEBUF, all 19200 words: in FA.WRITE_IMAGE, or in a step from `S_RETR`
with the result `Complete` that ends the retrieval with `OK`, from states whose command and session agree (R39, R169, R233,
R236). -/
def Obligations.DestIsWrittenOnlyAsAnImage : Prop :=
  ∀ (i : Instr) (s t : State),
    ctlOk s → exec i s = .next t →
      (∀ a, readDest t a = readDest s a) ∨
        (ImageWritten t t ∧ (∀ a, 19200 ≤ a → readDest t a = readDest s a) ∧
          (i = .faWriteImage ∨
            ((i = .faresComplete ∨ t.out.fa = some .complete) ∧ ImageEndsRetrieval s t)))

/-- `CAUSE` changes only in the entry of a resynchronisation, from `S_RETR`, or on RESET (R37, R235, R270, R271). -/
def Obligations.CauseIsWrittenOnlyByTheTrap : Prop :=
  ∀ (i : Instr) (s t : State),
    exec i s = .next t → i ≠ .reset →
      t.stat.cause = s.stat.cause ∨ (s.ctl.scState = .retr ∧ t.stat.cause ≠ .none ∧ Trapped t.stat.cause t)

/-- What an agent may not write it does not write: the producer nothing of FA, SC, TM, the registers or DEST, of ARENA
only the chunk it holds, of FQ only the entry at the tail, the tail, which stays or advances by one modulo `QCAP`, and the
count with it, and `refcnt` only upwards; TM only its flags (R43, R280). -/
def Obligations.AgentsKeepToTheirRights : Prop :=
  ∀ (i : Instr) (s t : State),
    exec i s = .next t →
      (i = .rbNextChunk ∨ i = .spTransfer ∨ i = .spSplit ∨ (∃ r, i = .spExit r) →
        TailOnly s t ∧ SameBytesBut .arena (s.prod.curChunk * (s.cfg.p * 164)) (s.cfg.p * 164) s t ∧
          (∀ c, refGet s c ≤ refGet t c) ∧
          AllBut [.arena, .wrIdx, .curChunk, .splitIdx, .pState, .refcnt, .queue, .outPf, .requests, .trIn, .draws,
            .trace] s t) ∧
      (i = .tmFire → AllBut [.dlFired, .trace] s t) ∧
      (i = .tmBackoffEnd → AllBut [.boRunning, .trace] s t)

/-- No other transition of the two sequencers exists than those of the tables of R240 and R198, whatever instruction is
performed; those of the producer in states whose controller and producer agree (R32, R198, R240). -/
def Obligations.SequencersTakeOnlyTheirTransitions : Prop :=
  ∀ (i : Instr) (s t : State),
    exec i s = .next t → i ≠ .reset →
      (t.ctl.scState = s.ctl.scState ∨
        (s.ctl.scState, t.ctl.scState) ∈
          ([(.closed, .opConn), (.opConn, .opened), (.opConn, .retr), (.opConn, .closed), (.opened, .retr),
            (.opened, .clJoin), (.retr, .opened), (.retr, .clJoin), (.retr, .rsJoin), (.rsJoin, .rsBackoff),
            (.rsBackoff, .rsConn), (.rsConn, .retr), (.rsConn, .closed), (.clJoin, .closed)] :
            List (ScState × ScState))) ∧
      (ctlOk s →
        t.prod.pState = s.prod.pState ∨
          (s.prod.pState, t.prod.pState) ∈
            ([(.idle, .acq), (.acq, .doneCancel), (.acq, .xfer), (.xfer, .split), (.xfer, .doneFail), (.split, .acq),
              (.split, .doneCancel), (.doneCancel, .idle), (.doneFail, .idle)] : List (PState × PState)))

/-- The transport is asked for one thing a step at most, and only for what its contract allows: connect when no
connection is open, a transfer of exactly `CHUNK_BYTES` by the producer in `P_XFER` on an open connection, close on an
open connection once the producer has terminated (R283, R317). -/
def Obligations.TransportIsUsedAsItsContractSays : Prop :=
  ∀ s t : State,
    Inv s → step s = .next t →
      t.out.requests = s.out.requests ∨
        (t.out.requests = s.out.requests ++ [.connect s.cfg.connectArgs] ∧ s.ctl.trOpen = false) ∨
        (t.out.requests = s.out.requests ++ [.transfer (s.cfg.p * 164)] ∧ s.ctl.trOpen = true ∧
          s.prod.pState = .xfer) ∨
        (t.out.requests = s.out.requests ++ [.close] ∧ s.ctl.trOpen = true ∧ running s = false)

/-- The queue is strictly FIFO, and the bytes a queued descriptor names stay as they are as long as it is queued: a step
keeps the queue, appends one descriptor, takes the oldest, or empties it, and never overwrites a queued packet (R71,
R72, R73, R201). -/
def Obligations.QueueIsFifoAndPacketsStayWhole : Prop :=
  ∀ s t : State,
    Inv s → step s = .next t →
      (queued t = queued s ∨ (∃ d, queued t = queued s ++ [d]) ∨ (∃ d, queued s = d :: queued t) ∨ queued t = []) ∧
        (queued t).length ≤ s.cfg.qcap ∧
        ∀ d, d ∈ queued s → d ∈ queued t → ∀ k, k < 164 →
          readByte t .arena (sliceAddr s.cfg d.chunk d.slot + k) =
            readByte s .arena (sliceAddr s.cfg d.chunk d.slot + k)

/-- Whenever the producer waits uncancelled, FQ is not empty, and in a retrieval the consumer's turn is enabled and
lowers the occupancy unless the deadline ends the command (R203). -/
def Obligations.WaitingProducerMeetsAQueuedPacket : Prop :=
  ∀ s : State,
    Inv s → s.prod.cancel = false →
      (s.prod.pState = .acq ∧ refGet s s.ring.wrIdx ≠ 0) ∨
        (s.prod.pState = .split ∧ s.prod.splitIdx < s.cfg.p ∧ s.queue.count = s.cfg.qcap) →
        0 < s.queue.count ∧
          (s.ctl.scState = .retr → s.tim.dlFired = false →
            Completes .scConsume s fun t => t.queue.count + 1 = s.queue.count)

/-- After SP.CANCEL the join ends: `P + 2` steps of the producer from `P_ACQ` or `P_SPLIT` terminate it, whatever the
packets are, and from `P_XFER` one more, the transfer, which R199's bound does not count (R199; log 22). -/
def Obligations.CancelledProducerTerminatesInTime : Prop :=
  ∀ (s : State) (rest : List Line) (k : Nat),
    Inv s → s.prod.cancel = true → running s = true →
      k = (if s.prod.pState = .xfer then s.cfg.p + 3 else s.cfg.p + 2) →
        s.env.sched = List.replicate k .producer ++ rest →
          ∃ t, Sys2Proof.core.run k s = .next t ∧ (t.prod.pState = .doneCancel ∨ t.prod.pState = .doneFail)

/-- The host writes a word of its DEST in any state, and the block is not affected; that it may do so while a command is
in progress is the model's choice (log 29). An address outside DEST faults, the model's choice too (R39, R43; log 16; the
line of the schedule, log 26). -/
def Obligations.HostWritesItsOwnDest : Prop :=
  ∀ (s : State) (a : Nat) (v : BitVec 16),
    (nextLine s).1 = .write (.dest a v) →
      (a < 19200 →
        ∃ t, step s = .next t ∧ readDest t a = v ∧ (∀ b, b ≠ a → readDest t b = readDest s b) ∧
          AllBut [.dest] (nextLine s).2 t ∧ AllBut [.dest, .sched, .draws] s t) ∧
      (19200 ≤ a → step s = .fault .outsideDest)
end

