-- ==== Sys2Proof/Laws/Memory.lean ====
section
/-!
SUPPORT. The laws of the sparse stores: what a read after a write gives, what a write leaves alone, and that every
memory operation keeps the canonical form and the bounds.
-/

namespace Sys2Proof.Laws

open Sys2Proof.Machine Sys2Proof.Safety

variable {α : Type}

/-! ### Reading a store -/

theorem cellGet_append (m₁ m₂ : List (Nat × α)) (a : Nat) :
    cellGet (m₁ ++ m₂) a = (cellGet m₁ a).orElse fun _ => cellGet m₂ a := by
  induction m₁ with
  | nil => simp [cellGet]
  | cons c m ih => obtain ⟨k, v⟩ := c; by_cases h : k = a <;> simp [cellGet, h, ih]

theorem cellGet_filter (m : List (Nat × α)) (f : Nat → Bool) (a : Nat) :
    cellGet (m.filter fun c => f c.1) a = if f a then cellGet m a else none := by
  induction m with
  | nil => simp [cellGet]
  | cons c m ih =>
    obtain ⟨k, v⟩ := c
    by_cases hk : k = a
    · subst hk; by_cases hf : f k <;> simp_all [cellGet]
    · by_cases hf : f k <;> simp [cellGet, hf, hk, ih]

theorem cellGet_cellsFrom (base : Nat) (vs : List α) (a : Nat) :
    cellGet (cellsFrom base vs) a = if base ≤ a then vs[a - base]? else none := by
  induction vs generalizing base with
  | nil => simp [cellsFrom, cellGet]
  | cons v vs ih =>
    by_cases h : base = a
    · subst h; simp [cellsFrom, cellGet]
    · rw [cellsFrom, cellGet, if_neg h, ih]
      by_cases h1 : base ≤ a
      · have h2 : a - base = a - (base + 1) + 1 := by omega
        rw [if_pos (by omega), if_pos h1, h2, List.getElem?_cons_succ]
      · rw [if_neg (by omega), if_neg h1]

/-- A read after a write: the value written inside the range, what was there outside it. -/
theorem cellGet_cellsSet (m : List (Nat × α)) (base : Nat) (vs : List α) (a : Nat) :
    cellGet (cellsSet m base vs) a =
      if base ≤ a ∧ a < base + vs.length then vs[a - base]? else cellGet m a := by
  rw [cellsSet, cellGet_append, cellGet_append, cellGet_cellsFrom,
    cellGet_filter m (fun k => decide (k < base)), cellGet_filter m (fun k => decide (base + vs.length ≤ k))]
  by_cases h1 : a < base
  · have : ¬ base ≤ a := by omega
    have : ¬ base + vs.length ≤ a := by omega
    cases hg : cellGet m a <;> simp_all
  · by_cases h2 : a < base + vs.length
    · have h3 : a - base < vs.length := by omega
      simp [h1, h2, List.getElem?_eq_getElem h3, Nat.not_lt.mp h1]
    · have h3 : vs.length ≤ a - base := by omega
      simp [h1, h2, List.getElem?_eq_none h3, Nat.not_lt.mp h2]

theorem cellGet_cellsSet_outside (m : List (Nat × α)) (base : Nat) (vs : List α) (a : Nat)
    (h : a < base ∨ base + vs.length ≤ a) : cellGet (cellsSet m base vs) a = cellGet m a := by
  rw [cellGet_cellsSet, if_neg (by omega)]

theorem cellGet_cellsSet_inside (m : List (Nat × α)) (base : Nat) (vs : List α) (j : Nat) (h : j < vs.length) :
    cellGet (cellsSet m base vs) (base + j) = some vs[j] := by
  rw [cellGet_cellsSet, if_pos (by omega)]
  simp [h]

theorem isSome_cellsSet (m : List (Nat × α)) (base : Nat) (vs : List α) (a : Nat)
    (h : (base ≤ a ∧ a < base + vs.length) ∨ (cellGet m a).isSome = true) :
    (cellGet (cellsSet m base vs) a).isSome = true := by
  rw [cellGet_cellsSet]
  split
  · next h' =>
    have : a - base < vs.length := by omega
    simp [this]
  · next h' => exact h.resolve_left h'

theorem cellGet_cellDel (m : List (Nat × α)) (k a : Nat) :
    cellGet (cellDel m k) a = if a = k then none else cellGet m a := by
  rw [cellDel, cellGet_filter m (fun c => decide (c ≠ k))]
  by_cases h : a = k <;> simp [h]

theorem cellGet_mem (m : List (Nat × α)) (a : Nat) (v : α) (h : cellGet m a = some v) : (a, v) ∈ m := by
  induction m with
  | nil => simp [cellGet] at h
  | cons c m ih =>
    obtain ⟨k, w⟩ := c
    by_cases hk : k = a
    · simp_all [cellGet]
    · exact List.mem_cons_of_mem _ (ih (by simpa [cellGet, hk] using h))

/-! ### The canonical form and the bounds -/

theorem cellsFrom_bounds (base : Nat) (vs : List α) (c : Nat × α) (h : c ∈ cellsFrom base vs) :
    base ≤ c.1 ∧ c.1 < base + vs.length := by
  induction vs generalizing base with
  | nil => simp [cellsFrom] at h
  | cons v vs ih =>
    rw [cellsFrom, List.mem_cons] at h
    rcases h with h | h
    · subst h; simp
    · have := ih _ h; simp only [List.length_cons]; omega

theorem cellsFrom_wf (base : Nat) (vs : List α) : Memory.wf (cellsFrom base vs) := by
  induction vs generalizing base with
  | nil => exact List.Pairwise.nil
  | cons v vs ih =>
    refine List.Pairwise.cons (fun c hc => ?_) (ih _)
    have := cellsFrom_bounds _ _ c hc
    simp only; omega

theorem cellsSet_wf (m : List (Nat × α)) (base : Nat) (vs : List α) (h : Memory.wf m) :
    Memory.wf (cellsSet m base vs) := by
  unfold cellsSet Memory.wf
  rw [List.pairwise_append, List.pairwise_append]
  refine ⟨⟨h.filter _, cellsFrom_wf _ _, fun a ha b hb => ?_⟩, h.filter _, fun a ha b hb => ?_⟩
  · have := cellsFrom_bounds _ _ b hb
    simp only [List.mem_filter, decide_eq_true_eq] at ha
    omega
  · simp only [List.mem_filter, decide_eq_true_eq] at hb
    rcases List.mem_append.mp ha with ha | ha
    · simp only [List.mem_filter, decide_eq_true_eq] at ha; omega
    · have := cellsFrom_bounds _ _ a ha; omega

theorem cellDel_wf (m : List (Nat × α)) (k : Nat) (h : Memory.wf m) : Memory.wf (cellDel m k) := h.filter _

theorem mem_cellsSet (m : List (Nat × α)) (base : Nat) (vs : List α) (c : Nat × α) (h : c ∈ cellsSet m base vs) :
    c ∈ m ∨ c ∈ cellsFrom base vs := by
  simp only [cellsSet, List.mem_append, List.mem_filter] at h
  tauto

theorem cellsSet_below (m : List (Nat × α)) (base n : Nat) (vs : List α) (h : Below m n)
    (hb : base + vs.length ≤ n) : Below (cellsSet m base vs) n := by
  intro c hc
  rcases mem_cellsSet _ _ _ _ hc with h' | h'
  · exact h c h'
  · have := cellsFrom_bounds _ _ c h'; omega

theorem refSet_wf (m : List (Nat × Nat)) (c v : Nat) (h : Memory.wf m) : Memory.wf (refSet m c v) := by
  unfold refSet; split
  · exact cellDel_wf _ _ h
  · exact cellsSet_wf _ _ _ h

theorem refSet_pos (m : List (Nat × Nat)) (c v : Nat) (h : ∀ x ∈ m, x.2 ≠ 0) : ∀ x ∈ refSet m c v, x.2 ≠ 0 := by
  unfold refSet; split
  · intro x hx; exact h x (List.mem_of_mem_filter hx)
  · next hv =>
    intro x hx
    rcases mem_cellsSet _ _ _ _ hx with h' | h'
    · exact h x h'
    · have : x = (c, v) := by simpa [cellsFrom] using h'
      subst this; exact hv

/-- `refcnt` after `refcnt[c] <- v`. -/
theorem cellGet_refSet (m : List (Nat × Nat)) (c v a : Nat) :
    (cellGet (refSet m c v) a).getD 0 = if a = c then v else (cellGet m a).getD 0 := by
  unfold refSet
  split
  · next hv => rw [cellGet_cellDel]; by_cases h : a = c <;> simp [h, hv]
  · rw [cellGet_cellsSet]
    by_cases h : a = c
    · subst h; simp
    · rw [if_neg (by simp only [List.length_cons, List.length_nil]; omega), if_neg h]

/-! ### The byte memories -/

@[simp] theorem readBytes_length (s : State) (sp : ByteSpace) (a n : Nat) : (readBytes s sp a n).length = n := by
  simp [readBytes]

theorem readBytes_getElem (s : State) (sp : ByteSpace) (a n i : Nat) (h : i < (readBytes s sp a n).length) :
    (readBytes s sp a n)[i] = readByte s sp (a + i) := by
  simp [readBytes]

@[simp] theorem rxBytes_length (s : State) (n : Nat) : (rxBytes s n).length = n := by simp [rxBytes]

@[simp] theorem failedBytes_length (s : State) (n : Nat) : (failedBytes s n).length = n := by simp [failedBytes]

/-- When every byte is scripted, a transfer delivers the script (R191). -/
theorem rxBytes_scripted (s : State) (n : Nat) (h : (answerOf s).data.length = n) :
    rxBytes s n = (answerOf s).data := by
  apply List.ext_getElem
  · simp [h]
  · intro i h1 h2
    simp [rxBytes, h2]

theorem byteAt_of_lt (bs : List Byte) (i : Nat) (h : i < bs.length) : byteAt bs i = bs[i] := by
  simp [byteAt, h]

@[simp] theorem cellsOf_withCells (sp : ByteSpace) (m : List Host.Cell) (s : State) :
    cellsOf (withCells sp m s) sp = m := by
  cases sp <;> rfl

theorem cellsOf_withCells_of_ne (sp sp' : ByteSpace) (m : List Host.Cell) (s : State) (h : sp' ≠ sp) :
    cellsOf (withCells sp m s) sp' = cellsOf s sp' := by
  cases sp <;> cases sp' <;> first | rfl | exact absurd rfl h

@[simp] theorem withCells_cfg (sp : ByteSpace) (m : List Host.Cell) (s : State) : (withCells sp m s).cfg = s.cfg := by
  cases sp <;> rfl

@[simp] theorem withCells_env (sp : ByteSpace) (m : List Host.Cell) (s : State) : (withCells sp m s).env = s.env := by
  cases sp <;> rfl

/-- Everything `MemRead` can do. -/
theorem memRead_cases (sp : ByteSpace) (a n : Nat) (s : State) :
    (a + n ≤ spaceSize s.cfg sp ∧ memRead sp a n s = .ok (readBytes s sp a n)) ∨
      (spaceSize s.cfg sp < a + n ∧ memRead sp a n s = .error (outsideOf sp)) := by
  by_cases h : a + n ≤ spaceSize s.cfg sp
  · exact .inl ⟨h, if_pos h⟩
  · exact .inr ⟨by omega, if_neg h⟩

/-- Everything `MemWrite` can do. -/
theorem memWrite_cases (sp : ByteSpace) (a : Nat) (bs : List Byte) (s : State) :
    (a + bs.length ≤ spaceSize s.cfg sp ∧
        memWrite sp a bs s = .ok (withCells sp (cellsSet (cellsOf s sp) a bs) s)) ∨
      (spaceSize s.cfg sp < a + bs.length ∧ memWrite sp a bs s = .error (outsideOf sp)) := by
  by_cases h : a + bs.length ≤ spaceSize s.cfg sp
  · exact .inl ⟨h, if_pos h⟩
  · exact .inr ⟨by omega, if_neg h⟩

/-- A byte read after a write into the same memory. -/
theorem readByte_withCells_cellsSet (s : State) (sp : ByteSpace) (a x : Nat) (bs : List Byte) :
    readByte (withCells sp (cellsSet (cellsOf s sp) a bs) s) sp x =
      if a ≤ x ∧ x < a + bs.length then byteAt bs (x - a) else readByte s sp x := by
  unfold readByte
  rw [cellsOf_withCells, cellGet_cellsSet, withCells_env]
  split
  · next h =>
    have h' : x - a < bs.length := by omega
    rw [byteAt_of_lt _ _ h', List.getElem?_eq_getElem h', Option.getD_some]
  · rfl

/-- A write into one memory leaves the others alone. -/
theorem readByte_withCells_of_ne (s : State) (sp sp' : ByteSpace) (m : List Host.Cell) (x : Nat) (h : sp' ≠ sp) :
    readByte (withCells sp m s) sp' x = readByte s sp' x := by
  unfold readByte
  rw [cellsOf_withCells_of_ne sp sp' m s h, withCells_env]

/-- The bytes of a packet that lies inside ARENA. -/
theorem slice_inside (c : Params) (d : Desc) (h : descOk c d = true) :
    sliceAddr c d.chunk d.slot + 164 ≤ spaceSize c .arena := by
  simp only [descOk, decide_eq_true_eq] at h
  obtain ⟨h1, h2⟩ := h
  have hb : d.slot * 164 + 164 ≤ c.p * 164 := by nlinarith
  have hc : d.chunk * (c.p * 164) + c.p * 164 ≤ c.n * (c.p * 164) := by nlinarith
  simp only [sliceAddr, chunkAddr, spaceSize, chunkBytes, Config.pktBytes]
  omega

/-- A whole chunk lies inside ARENA. -/
theorem chunk_inside (c : Params) (k : Nat) (h : k < c.n) : chunkAddr c k + chunkBytes c ≤ spaceSize c .arena := by
  simp only [chunkAddr, spaceSize]
  nlinarith

/-! ### The image -/

/-- The address of a pixel, as R169 computes it, is `80 k + j`. -/
theorem slotPixelAddr_eq (k j : Nat) : slotPixelAddr k j = 80 * k + j := by
  simp only [slotPixelAddr, pixelAddr, Config.pixPerPkt]
  omega

/-- Memory after reset is in its canonical form. -/
theorem reset_stores_wf :
    Memory.wf State.reset.ring.arena ∧ Memory.wf State.reset.fa.segbuf ∧ Memory.wf State.reset.fa.framebuf ∧
      Memory.wf State.reset.dest ∧ Memory.wf State.reset.queue.store ∧ Memory.wf State.reset.ring.refcnt :=
  ⟨.nil, .nil, .nil, .nil, .nil, .nil⟩

end Sys2Proof.Laws
end

