-- ==== Sys2Proof/Laws/State.lean ====
section
/-!
SUPPORT. One lemma per part of the state per named update, each true by `rfl`, so that no later proof unfolds a record
update.
-/

namespace Sys2Proof.Laws

open Sys2Proof.Machine

/-! ### emit -/

@[simp] theorem emit_cfg (e : Event) (s : State) : (emit e s).cfg = s.cfg := rfl
@[simp] theorem emit_fa (e : Event) (s : State) : (emit e s).fa = s.fa := rfl
@[simp] theorem emit_ring (e : Event) (s : State) : (emit e s).ring = s.ring := rfl
@[simp] theorem emit_queue (e : Event) (s : State) : (emit e s).queue = s.queue := rfl
@[simp] theorem emit_prod (e : Event) (s : State) : (emit e s).prod = s.prod := rfl
@[simp] theorem emit_ctl (e : Event) (s : State) : (emit e s).ctl = s.ctl := rfl
@[simp] theorem emit_tim (e : Event) (s : State) : (emit e s).tim = s.tim := rfl
@[simp] theorem emit_regs (e : Event) (s : State) : (emit e s).regs = s.regs := rfl
@[simp] theorem emit_stat (e : Event) (s : State) : (emit e s).stat = s.stat := rfl
@[simp] theorem emit_dest (e : Event) (s : State) : (emit e s).dest = s.dest := rfl
@[simp] theorem emit_env (e : Event) (s : State) : (emit e s).env = s.env := rfl
@[simp] theorem emit_out (e : Event) (s : State) :
    (emit e s).out =
      { s.out with trace := bif s.cfg.trace then s.out.trace ++ [e] else s.out.trace } := rfl

/-! ### request -/

@[simp] theorem request_cfg (r : TrRequest) (s : State) : (request r s).cfg = s.cfg := rfl
@[simp] theorem request_fa (r : TrRequest) (s : State) : (request r s).fa = s.fa := rfl
@[simp] theorem request_ring (r : TrRequest) (s : State) : (request r s).ring = s.ring := rfl
@[simp] theorem request_queue (r : TrRequest) (s : State) : (request r s).queue = s.queue := rfl
@[simp] theorem request_prod (r : TrRequest) (s : State) : (request r s).prod = s.prod := rfl
@[simp] theorem request_ctl (r : TrRequest) (s : State) : (request r s).ctl = s.ctl := rfl
@[simp] theorem request_tim (r : TrRequest) (s : State) : (request r s).tim = s.tim := rfl
@[simp] theorem request_regs (r : TrRequest) (s : State) : (request r s).regs = s.regs := rfl
@[simp] theorem request_stat (r : TrRequest) (s : State) : (request r s).stat = s.stat := rfl
@[simp] theorem request_dest (r : TrRequest) (s : State) : (request r s).dest = s.dest := rfl
@[simp] theorem request_env (r : TrRequest) (s : State) : (request r s).env = s.env := rfl
@[simp] theorem request_out (r : TrRequest) (s : State) :
    (request r s).out =
      { s.out with requests := s.out.requests ++ [r] } := rfl

/-! ### drawn -/

@[simp] theorem drawn_cfg (s : State) : (drawn s).cfg = s.cfg := rfl
@[simp] theorem drawn_fa (s : State) : (drawn s).fa = s.fa := rfl
@[simp] theorem drawn_ring (s : State) : (drawn s).ring = s.ring := rfl
@[simp] theorem drawn_queue (s : State) : (drawn s).queue = s.queue := rfl
@[simp] theorem drawn_prod (s : State) : (drawn s).prod = s.prod := rfl
@[simp] theorem drawn_ctl (s : State) : (drawn s).ctl = s.ctl := rfl
@[simp] theorem drawn_tim (s : State) : (drawn s).tim = s.tim := rfl
@[simp] theorem drawn_regs (s : State) : (drawn s).regs = s.regs := rfl
@[simp] theorem drawn_stat (s : State) : (drawn s).stat = s.stat := rfl
@[simp] theorem drawn_dest (s : State) : (drawn s).dest = s.dest := rfl
@[simp] theorem drawn_env (s : State) :
    (drawn s).env =
      { s.env with trIn := s.env.trIn.tail, draws := s.env.draws + 1 } := rfl
@[simp] theorem drawn_out (s : State) : (drawn s).out = s.out := rfl

/-! ### answer -/

@[simp] theorem answer_cfg (st : Status) (s : State) : (answer st s).cfg = s.cfg := rfl
@[simp] theorem answer_fa (st : Status) (s : State) : (answer st s).fa = s.fa := rfl
@[simp] theorem answer_ring (st : Status) (s : State) : (answer st s).ring = s.ring := rfl
@[simp] theorem answer_queue (st : Status) (s : State) : (answer st s).queue = s.queue := rfl
@[simp] theorem answer_prod (st : Status) (s : State) : (answer st s).prod = s.prod := rfl
@[simp] theorem answer_ctl (st : Status) (s : State) : (answer st s).ctl = s.ctl := rfl
@[simp] theorem answer_tim (st : Status) (s : State) : (answer st s).tim = s.tim := rfl
@[simp] theorem answer_regs (st : Status) (s : State) : (answer st s).regs = s.regs := rfl
@[simp] theorem answer_stat (st : Status) (s : State) : (answer st s).stat = s.stat := rfl
@[simp] theorem answer_dest (st : Status) (s : State) : (answer st s).dest = s.dest := rfl
@[simp] theorem answer_env (st : Status) (s : State) : (answer st s).env = s.env := rfl
@[simp] theorem answer_out (st : Status) (s : State) :
    (answer st s).out =
      { s.out with answers := s.out.answers ++ [st] } := rfl

/-! ### putPv -/

@[simp] theorem putPv_cfg (r : PvRes) (s : State) : (putPv r s).cfg = s.cfg := rfl
@[simp] theorem putPv_fa (r : PvRes) (s : State) : (putPv r s).fa = s.fa := rfl
@[simp] theorem putPv_ring (r : PvRes) (s : State) : (putPv r s).ring = s.ring := rfl
@[simp] theorem putPv_queue (r : PvRes) (s : State) : (putPv r s).queue = s.queue := rfl
@[simp] theorem putPv_prod (r : PvRes) (s : State) : (putPv r s).prod = s.prod := rfl
@[simp] theorem putPv_ctl (r : PvRes) (s : State) : (putPv r s).ctl = s.ctl := rfl
@[simp] theorem putPv_tim (r : PvRes) (s : State) : (putPv r s).tim = s.tim := rfl
@[simp] theorem putPv_regs (r : PvRes) (s : State) : (putPv r s).regs = s.regs := rfl
@[simp] theorem putPv_stat (r : PvRes) (s : State) : (putPv r s).stat = s.stat := rfl
@[simp] theorem putPv_dest (r : PvRes) (s : State) : (putPv r s).dest = s.dest := rfl
@[simp] theorem putPv_env (r : PvRes) (s : State) : (putPv r s).env = s.env := rfl
@[simp] theorem putPv_out (r : PvRes) (s : State) :
    (putPv r s).out =
      { s.out with pv := some r, trace := bif s.cfg.trace then s.out.trace ++ [.validate r] else s.out.trace } := rfl

/-! ### spCancelOp -/

@[simp] theorem spCancelOp_cfg (s : State) : (spCancelOp s).cfg = s.cfg := rfl
@[simp] theorem spCancelOp_fa (s : State) : (spCancelOp s).fa = s.fa := rfl
@[simp] theorem spCancelOp_ring (s : State) : (spCancelOp s).ring = s.ring := rfl
@[simp] theorem spCancelOp_queue (s : State) : (spCancelOp s).queue = s.queue := rfl
@[simp] theorem spCancelOp_prod (s : State) : (spCancelOp s).prod = { s.prod with cancel := true } := rfl
@[simp] theorem spCancelOp_ctl (s : State) : (spCancelOp s).ctl = s.ctl := rfl
@[simp] theorem spCancelOp_tim (s : State) : (spCancelOp s).tim = s.tim := rfl
@[simp] theorem spCancelOp_regs (s : State) : (spCancelOp s).regs = s.regs := rfl
@[simp] theorem spCancelOp_stat (s : State) : (spCancelOp s).stat = s.stat := rfl
@[simp] theorem spCancelOp_dest (s : State) : (spCancelOp s).dest = s.dest := rfl
@[simp] theorem spCancelOp_env (s : State) : (spCancelOp s).env = s.env := rfl
@[simp] theorem spCancelOp_out (s : State) :
    (spCancelOp s).out =
      { s.out with trace := bif s.cfg.trace then s.out.trace ++ [.spCancel] else s.out.trace } := rfl

/-! ### exitOnCancel -/

@[simp] theorem exitOnCancel_cfg (s : State) : (exitOnCancel s).cfg = s.cfg := rfl
@[simp] theorem exitOnCancel_fa (s : State) : (exitOnCancel s).fa = s.fa := rfl
@[simp] theorem exitOnCancel_ring (s : State) : (exitOnCancel s).ring = s.ring := rfl
@[simp] theorem exitOnCancel_queue (s : State) : (exitOnCancel s).queue = s.queue := rfl
@[simp] theorem exitOnCancel_prod (s : State) : (exitOnCancel s).prod = { s.prod with pState := .doneCancel } := rfl
@[simp] theorem exitOnCancel_ctl (s : State) : (exitOnCancel s).ctl = s.ctl := rfl
@[simp] theorem exitOnCancel_tim (s : State) : (exitOnCancel s).tim = s.tim := rfl
@[simp] theorem exitOnCancel_regs (s : State) : (exitOnCancel s).regs = s.regs := rfl
@[simp] theorem exitOnCancel_stat (s : State) : (exitOnCancel s).stat = s.stat := rfl
@[simp] theorem exitOnCancel_dest (s : State) : (exitOnCancel s).dest = s.dest := rfl
@[simp] theorem exitOnCancel_env (s : State) : (exitOnCancel s).env = s.env := rfl
@[simp] theorem exitOnCancel_out (s : State) :
    (exitOnCancel s).out =
      { s.out with trace := bif s.cfg.trace then s.out.trace ++ [.spExit .cancel] else s.out.trace } := rfl

/-! ### faResetOp -/

@[simp] theorem faResetOp_cfg (s : State) : (faResetOp s).cfg = s.cfg := rfl
@[simp] theorem faResetOp_fa (s : State) : (faResetOp s).fa = { s.fa with lastPn := none, segOrd := 0 } := rfl
@[simp] theorem faResetOp_ring (s : State) : (faResetOp s).ring = s.ring := rfl
@[simp] theorem faResetOp_queue (s : State) : (faResetOp s).queue = s.queue := rfl
@[simp] theorem faResetOp_prod (s : State) : (faResetOp s).prod = s.prod := rfl
@[simp] theorem faResetOp_ctl (s : State) : (faResetOp s).ctl = s.ctl := rfl
@[simp] theorem faResetOp_tim (s : State) : (faResetOp s).tim = s.tim := rfl
@[simp] theorem faResetOp_regs (s : State) : (faResetOp s).regs = s.regs := rfl
@[simp] theorem faResetOp_stat (s : State) : (faResetOp s).stat = s.stat := rfl
@[simp] theorem faResetOp_dest (s : State) : (faResetOp s).dest = s.dest := rfl
@[simp] theorem faResetOp_env (s : State) : (faResetOp s).env = s.env := rfl
@[simp] theorem faResetOp_out (s : State) :
    (faResetOp s).out =
      { s.out with trace := bif s.cfg.trace then s.out.trace ++ [.faReset] else s.out.trace } := rfl

/-! ### fqFlushOp -/

@[simp] theorem fqFlushOp_cfg (s : State) : (fqFlushOp s).cfg = s.cfg := rfl
@[simp] theorem fqFlushOp_fa (s : State) : (fqFlushOp s).fa = s.fa := rfl
@[simp] theorem fqFlushOp_ring (s : State) : (fqFlushOp s).ring = { s.ring with refcnt := [] } := rfl
@[simp] theorem fqFlushOp_queue (s : State) :
    (fqFlushOp s).queue =
      { s.queue with head := 0, tail := 0, count := 0 } := rfl
@[simp] theorem fqFlushOp_prod (s : State) : (fqFlushOp s).prod = { s.prod with pState := .idle } := rfl
@[simp] theorem fqFlushOp_ctl (s : State) : (fqFlushOp s).ctl = s.ctl := rfl
@[simp] theorem fqFlushOp_tim (s : State) : (fqFlushOp s).tim = s.tim := rfl
@[simp] theorem fqFlushOp_regs (s : State) : (fqFlushOp s).regs = s.regs := rfl
@[simp] theorem fqFlushOp_stat (s : State) : (fqFlushOp s).stat = s.stat := rfl
@[simp] theorem fqFlushOp_dest (s : State) : (fqFlushOp s).dest = s.dest := rfl
@[simp] theorem fqFlushOp_env (s : State) : (fqFlushOp s).env = s.env := rfl
@[simp] theorem fqFlushOp_out (s : State) :
    (fqFlushOp s).out =
      { s.out with trace := bif s.cfg.trace then s.out.trace ++ [.flush] else s.out.trace } := rfl

/-! ### spStartOp -/

@[simp] theorem spStartOp_cfg (s : State) : (spStartOp s).cfg = s.cfg := rfl
@[simp] theorem spStartOp_fa (s : State) : (spStartOp s).fa = s.fa := rfl
@[simp] theorem spStartOp_ring (s : State) : (spStartOp s).ring = { s.ring with wrIdx := 0, refcnt := [] } := rfl
@[simp] theorem spStartOp_queue (s : State) :
    (spStartOp s).queue =
      { s.queue with head := 0, tail := 0, count := 0 } := rfl
@[simp] theorem spStartOp_prod (s : State) :
    (spStartOp s).prod =
      { s.prod with cancel := false, splitIdx := 0, pState := .acq } := rfl
@[simp] theorem spStartOp_ctl (s : State) : (spStartOp s).ctl = s.ctl := rfl
@[simp] theorem spStartOp_tim (s : State) : (spStartOp s).tim = s.tim := rfl
@[simp] theorem spStartOp_regs (s : State) : (spStartOp s).regs = s.regs := rfl
@[simp] theorem spStartOp_stat (s : State) : (spStartOp s).stat = s.stat := rfl
@[simp] theorem spStartOp_dest (s : State) : (spStartOp s).dest = s.dest := rfl
@[simp] theorem spStartOp_env (s : State) : (spStartOp s).env = s.env := rfl
@[simp] theorem spStartOp_out (s : State) :
    (spStartOp s).out =
      { s.out with trace := bif s.cfg.trace then s.out.trace ++ [.spStart] else s.out.trace } := rfl

/-! ### writeImageOp -/

@[simp] theorem writeImageOp_cfg (s : State) : (writeImageOp s).cfg = s.cfg := rfl
@[simp] theorem writeImageOp_fa (s : State) : (writeImageOp s).fa = s.fa := rfl
@[simp] theorem writeImageOp_ring (s : State) : (writeImageOp s).ring = s.ring := rfl
@[simp] theorem writeImageOp_queue (s : State) : (writeImageOp s).queue = s.queue := rfl
@[simp] theorem writeImageOp_prod (s : State) : (writeImageOp s).prod = s.prod := rfl
@[simp] theorem writeImageOp_ctl (s : State) : (writeImageOp s).ctl = s.ctl := rfl
@[simp] theorem writeImageOp_tim (s : State) : (writeImageOp s).tim = s.tim := rfl
@[simp] theorem writeImageOp_regs (s : State) : (writeImageOp s).regs = s.regs := rfl
@[simp] theorem writeImageOp_stat (s : State) : (writeImageOp s).stat = s.stat := rfl
@[simp] theorem writeImageOp_dest (s : State) :
    (writeImageOp s).dest =
      imageCells s ++ s.dest.filter (fun c => decide (Config.destWords ≤ c.1)) := rfl
@[simp] theorem writeImageOp_env (s : State) : (writeImageOp s).env = s.env := rfl
@[simp] theorem writeImageOp_out (s : State) :
    (writeImageOp s).out =
      { s.out with trace := bif s.cfg.trace then s.out.trace ++ [.writeImage] else s.out.trace } := rfl

/-! ### withCells -/

@[simp] theorem withCells_arena (m : List Host.Cell) (s : State) :
    withCells .arena m s = { s with ring.arena := m } := rfl
@[simp] theorem withCells_segbuf (m : List Host.Cell) (s : State) :
    withCells .segbuf m s = { s with fa.segbuf := m } := rfl
@[simp] theorem withCells_framebuf (m : List Host.Cell) (s : State) :
    withCells .framebuf m s = { s with fa.framebuf := m } := rfl

/-! ### State.resetOf, State.reset -/

@[simp] theorem resetOf_cfg (c : Params) : (State.resetOf c).cfg = c := rfl
@[simp] theorem resetOf_fa (c : Params) : (State.resetOf c).fa = Fa.reset := rfl
@[simp] theorem resetOf_ring (c : Params) : (State.resetOf c).ring = Ring.reset := rfl
@[simp] theorem resetOf_queue (c : Params) : (State.resetOf c).queue = Queue.reset := rfl
@[simp] theorem resetOf_prod (c : Params) : (State.resetOf c).prod = Prod.reset := rfl
@[simp] theorem resetOf_ctl (c : Params) : (State.resetOf c).ctl = Ctl.reset := rfl
@[simp] theorem resetOf_tim (c : Params) : (State.resetOf c).tim = Tim.reset := rfl
@[simp] theorem resetOf_regs (c : Params) : (State.resetOf c).regs = Regs.reset c := rfl
@[simp] theorem resetOf_stat (c : Params) : (State.resetOf c).stat = Stat.reset := rfl
@[simp] theorem resetOf_dest (c : Params) : (State.resetOf c).dest = [] := rfl
@[simp] theorem resetOf_env (c : Params) : (State.resetOf c).env = Env.reset := rfl
@[simp] theorem resetOf_out (c : Params) : (State.resetOf c).out = Out.reset := rfl
theorem reset_eq : State.reset = State.resetOf Config.build := rfl
@[simp] theorem Regs_reset_padMask (c : Params) : (Regs.reset c).padMask = c.padMask := rfl
@[simp] theorem Regs_reset_padPattern (c : Params) : (Regs.reset c).padPattern = c.padPattern := rfl
@[simp] theorem build_padMask : Config.build.padMask = Config.padMaskDefault := rfl
@[simp] theorem build_padPattern : Config.build.padPattern = Config.padPatternDefault := rfl

/-! ### powerOn -/

@[simp] theorem powerOn_cfg (s : State) : (powerOn s).cfg = s.cfg := rfl
@[simp] theorem powerOn_fa (s : State) : (powerOn s).fa = Fa.reset := rfl
@[simp] theorem powerOn_ring (s : State) : (powerOn s).ring = Ring.reset := rfl
@[simp] theorem powerOn_queue (s : State) : (powerOn s).queue = Queue.reset := rfl
@[simp] theorem powerOn_prod (s : State) : (powerOn s).prod = Prod.reset := rfl
@[simp] theorem powerOn_ctl (s : State) : (powerOn s).ctl = Ctl.reset := rfl
@[simp] theorem powerOn_tim (s : State) : (powerOn s).tim = Tim.reset := rfl
@[simp] theorem powerOn_regs (s : State) : (powerOn s).regs = Regs.reset s.cfg := rfl
@[simp] theorem powerOn_stat (s : State) : (powerOn s).stat = Stat.reset := rfl
@[simp] theorem powerOn_dest (s : State) : (powerOn s).dest = s.dest := rfl
@[simp] theorem powerOn_env (s : State) : (powerOn s).env = { s.env with epoch := s.env.epoch + 1 } := rfl
@[simp] theorem powerOn_out (s : State) : (powerOn s).out = s.out := rfl

end Sys2Proof.Laws
end

