-- ==== Sys2Proof/Laws/Ops.lean ====
section
/-!
SUPPORT. For each shared operation one lemma that says once everything it can do.
-/

namespace Sys2Proof.Laws

open Sys2Proof.Machine Sys2Proof.Safety

/-! ### FA.ACCEPT -/

theorem toNat_eq_iff {w : Nat} (x : BitVec w) (n : Nat) (h : n < 2 ^ w) : x = BitVec.ofNat w n ↔ x.toNat = n := by
  rw [← BitVec.toNat_inj, BitVec.toNat_ofNat, Nat.mod_eq_of_lt h]

/-- The sequence check of R160 is the function `next` of R161. -/
theorem seqOk_iff (last : Option (BitVec 6)) (pn : BitVec 6) :
    seqOk last pn = true ↔ pn.toNat ≤ 59 ∧ pn.toNat = nextPn last := by
  have hp := pn.isLt
  have h0 : pn = 0 ↔ pn.toNat = 0 := toNat_eq_iff pn 0 (by decide)
  cases last with
  | none => simp only [seqOk, nextPn, Config.maxPn, Bool.and_eq_true, decide_eq_true_eq, beq_iff_eq, h0]
  | some l =>
    have h59 : l = 59 ↔ l.toNat = 59 := toNat_eq_iff l 59 (by decide)
    simp only [seqOk, nextPn, Config.maxPn, Bool.and_eq_true, Bool.or_eq_true, decide_eq_true_eq, beq_iff_eq, h0, h59]
    split <;> omega

/-- A payload stored in its slot of SEGBUF (R162). -/
def stored (pn : BitVec 6) (pay : List Byte) (s : State) : State :=
  withCells .segbuf (cellsSet s.fa.segbuf (pn.toNat * 160) pay) s

/-- SEGBUF copied to the region of `seg_ord` (R164). -/
def segmentCopied (s : State) : State :=
  withCells .framebuf (cellsSet s.fa.framebuf ((s.fa.segOrd.toNat - 1) * 9600) (readBytes s .segbuf 0 9600)) s

/-- Everything FA.ACCEPT can do to FA, case by case (R160 to R167). -/
inductive AcceptStep (pn : BitVec 6) (pay : List Byte) (s : State) : Except Fault (FaRes × State) → Prop
  | outOfOrder (h : ¬ (pn.toNat ≤ 59 ∧ pn.toNat = nextPn s.fa.lastPn)) :
      AcceptStep pn pay s (.ok (.sequenceError .outOfOrderPacket, s))
  | storeOutside (h : pn.toNat ≤ 59 ∧ pn.toNat = nextPn s.fa.lastPn) (hl : 9600 < pn.toNat * 160 + pay.length) :
      AcceptStep pn pay s (.error .outsideSegbuf)
  | badOrdinal (h : pn.toNat ≤ 59 ∧ pn.toNat = nextPn s.fa.lastPn) (hl : pn.toNat * 160 + pay.length ≤ 9600)
      (hp : pn = 20) (ho : 4 < (payOrd pay).toNat) :
      AcceptStep pn pay s (.ok (.sequenceError .invalidSegmentOrdinal, stored pn pay s))
  | otherSegment (h : pn.toNat ≤ 59 ∧ pn.toNat = nextPn s.fa.lastPn) (hl : pn.toNat * 160 + pay.length ≤ 9600)
      (hp : pn = 20) (h1 : 1 ≤ (payOrd pay).toNat) (h4 : (payOrd pay).toNat ≤ 4)
      (ho : (payOrd pay).toNat ≠ s.fa.segOrd.toNat + 1) :
      AcceptStep pn pay s (.ok (.sequenceError .outOfOrderSegment, stored pn pay s))
  | adopted (h : pn.toNat ≤ 59 ∧ pn.toNat = nextPn s.fa.lastPn) (hl : pn.toNat * 160 + pay.length ≤ 9600)
      (hp : pn = 20) (h1 : 1 ≤ (payOrd pay).toNat) (h4 : (payOrd pay).toNat ≤ 4)
      (ho : (payOrd pay).toNat = s.fa.segOrd.toNat + 1) :
      AcceptStep pn pay s (.ok (.incomplete,
        { stored pn pay s with fa.segOrd := (payOrd pay).setWidth 3, fa.lastPn := some pn }))
  | plain (h : pn.toNat ≤ 59 ∧ pn.toNat = nextPn s.fa.lastPn) (hl : pn.toNat * 160 + pay.length ≤ 9600)
      (hp : (pn = 20 ∧ (payOrd pay).toNat = 0) ∨ (pn ≠ 20 ∧ (pn = 59 → s.fa.segOrd.toNat = 0))) :
      AcceptStep pn pay s (.ok (.incomplete, { stored pn pay s with fa.lastPn := some pn }))
  | copied (h : pn.toNat ≤ 59 ∧ pn.toNat = nextPn s.fa.lastPn) (hl : pn.toNat * 160 + pay.length ≤ 9600)
      (hp : pn = 59) (h1 : 1 ≤ s.fa.segOrd.toNat) (h4 : s.fa.segOrd.toNat ≤ 4) :
      AcceptStep pn pay s (.ok (if s.fa.segOrd.toNat = 4 then .complete else .incomplete,
        { segmentCopied (stored pn pay s) with fa.lastPn := some pn }))
  | copyOutside (h : pn.toNat ≤ 59 ∧ pn.toNat = nextPn s.fa.lastPn) (hl : pn.toNat * 160 + pay.length ≤ 9600)
      (hp : pn = 59) (h4 : 4 < s.fa.segOrd.toNat) :
      AcceptStep pn pay s (.error .outsideFramebuf)

theorem acceptCore_cases (pn : BitVec 6) (pay : List Byte) (s : State) :
    AcceptStep pn pay s (acceptCore pn pay s) := by
  unfold acceptCore
  by_cases h : seqOk s.fa.lastPn pn = true
  · have hs := (seqOk_iff _ _).mp h
    rw [if_pos h]
    have hm : memWrite .segbuf (pn.toNat * Config.payBytes) pay s =
        if pn.toNat * 160 + pay.length ≤ 9600 then .ok (stored pn pay s) else .error .outsideSegbuf := rfl
    rw [hm]
    by_cases hl : pn.toNat * 160 + pay.length ≤ 9600
    · rw [if_pos hl]
      simp only
      have hso : (stored pn pay s).fa.segOrd = s.fa.segOrd := rfl
      by_cases h20 : pn = 20
      · have hn59 : pn ≠ 59 := by rw [h20]; decide
        have hcopy : ∀ x : State, copySegment pn x = .ok x := fun x => if_neg (fun e => hn59 e.1)
        have hres : ∀ x, acceptResult pn x = .incomplete := fun x => if_neg (fun e => hn59 e.1)
        rw [ordinalAfter, if_pos h20, ordinalStep, hso]
        by_cases h4 : 4 < (payOrd pay).toNat
        · rw [if_pos h4]; exact .badOrdinal hs hl h20 h4
        · rw [if_neg h4]
          by_cases h1 : 0 < (payOrd pay).toNat
          · rw [if_pos h1]
            by_cases ho : (payOrd pay).toNat = s.fa.segOrd.toNat + 1
            · rw [if_neg (not_not.mpr ho)]
              simp only [hcopy, hres]
              exact .adopted hs hl h20 h1 (Nat.not_lt.mp h4) ho
            · rw [if_pos ho]; exact .otherSegment hs hl h20 h1 (Nat.not_lt.mp h4) ho
          · rw [if_neg h1]
            simp only [hcopy, hres]
            exact .plain hs hl (.inl ⟨h20, by omega⟩)
      · rw [ordinalAfter, if_neg h20]
        simp only [hso]
        by_cases hc : pn = 59 ∧ 0 < s.fa.segOrd.toNat
        · have hcopy : copySegment pn { stored pn pay s with fa.segOrd := s.fa.segOrd } =
              if (s.fa.segOrd.toNat - 1) * 9600 + 9600 ≤ 38400 then .ok (segmentCopied (stored pn pay s))
              else .error .outsideFramebuf := by
            unfold copySegment
            rw [if_pos hc]
            simp only [memWrite, readBytes_length]
            rfl
          rw [hcopy]
          by_cases h4 : s.fa.segOrd.toNat ≤ 4
          · rw [if_pos (by omega)]
            have hr : acceptResult pn s.fa.segOrd = if s.fa.segOrd.toNat = 4 then .complete else .incomplete := by
              unfold acceptResult
              by_cases e : s.fa.segOrd.toNat = 4
              · rw [if_pos e, if_pos ⟨hc.1, (toNat_eq_iff _ 4 (by decide)).mpr e⟩]
              · rw [if_neg e, if_neg fun x => e ((toNat_eq_iff _ 4 (by decide)).mp x.2)]
            simp only [hr]
            exact .copied hs hl hc.1 hc.2 h4
          · rw [if_neg (by omega)]
            exact .copyOutside hs hl hc.1 (Nat.not_le.mp h4)
        · have hcopy : ∀ x : State, x.fa.segOrd = s.fa.segOrd → copySegment pn x = .ok x := fun x hx => by
            unfold copySegment; rw [hx]; exact if_neg hc
          have hz : pn = 59 → s.fa.segOrd.toNat = 0 := fun e => by
            by_contra hne; exact hc ⟨e, Nat.pos_of_ne_zero hne⟩
          have hr : acceptResult pn s.fa.segOrd = .incomplete := by
            refine if_neg fun e => ?_
            have := hz e.1
            rw [e.2] at this
            exact absurd this (by decide)
          have hcs := hcopy { stored pn pay s with fa.segOrd := s.fa.segOrd } rfl
          rw [hcs]
          simp only [hr]
          exact .plain hs hl (.inr ⟨h20, hz⟩)
    · rw [if_neg hl]; exact .storeOutside hs (Nat.not_le.mp hl)
  · have hs : ¬ (pn.toNat ≤ 59 ∧ pn.toNat = nextPn s.fa.lastPn) := fun e => h ((seqOk_iff _ _).mpr e)
    rw [if_neg h]
    exact .outOfOrder hs

/-- FA.ACCEPT is its core, its result put on the output and traced. -/
theorem faAcceptOp_ok {pn : BitVec 6} {pay : List Byte} {s t : State} {r : FaRes} :
    faAcceptOp pn pay s = .ok (r, t) ↔
      ∃ u, acceptCore pn pay s = .ok (r, u) ∧ t = emit (.accept r) { u with out.fa := some r } := by
  unfold faAcceptOp
  cases acceptCore pn pay s with
  | error f => simp
  | ok x => obtain ⟨r', u⟩ := x; simp only [Except.ok.injEq, Prod.mk.injEq]; constructor <;> rintro h <;> aesop

/-- FA.ACCEPT in range answers a next state. -/
theorem acceptCore_total (pn : BitVec 6) (pay : List Byte) (s : State) (hl : pay.length ≤ 160)
    (hs : s.fa.segOrd.toNat ≤ 4) : ∃ r u, acceptCore pn pay s = .ok (r, u) := by
  cases h : acceptCore pn pay s with
  | ok x => exact ⟨x.1, x.2, rfl⟩
  | error f =>
    have hc := acceptCore_cases pn pay s
    rw [h] at hc
    cases hc <;> omega

/-! ### Transfers -/

/-- The chunk under the producer overwritten. -/
def chunkFilled (bs : List Byte) (s : State) : State :=
  withCells .arena (cellsSet s.ring.arena (chunkAddr s.cfg s.prod.curChunk) bs) s

theorem transferOk_eq (s : State) (h : s.prod.curChunk < s.cfg.n) :
    transferOk s = .ok (emit (.xfer s.prod.curChunk true) (request (.transfer (chunkBytes s.cfg))
      (drawn { chunkFilled (rxBytes s (chunkBytes s.cfg)) s with prod.splitIdx := 0, prod.pState := .split }))) := by
  have hc := chunk_inside s.cfg s.prod.curChunk h
  unfold transferOk memWrite
  rw [rxBytes_length, if_pos hc]
  rfl

theorem transferFail_eq (s : State) (h : s.prod.curChunk < s.cfg.n) :
    transferFail s = .ok (emit (.spExit .transferFailure) (emit (.xfer s.prod.curChunk false)
      (request (.transfer (chunkBytes s.cfg))
        (drawn { chunkFilled (failedBytes s (chunkBytes s.cfg)) s with prod.pState := .doneFail })))) := by
  have hc := chunk_inside s.cfg s.prod.curChunk h
  unfold transferFail memWrite
  rw [failedBytes_length, if_pos hc]
  rfl

/-- A transfer either fills the chunk or the chunk is no chunk of ARENA. -/
theorem transferOk_ok {s t : State} (h : transferOk s = .ok t) :
    t = emit (.xfer s.prod.curChunk true) (request (.transfer (chunkBytes s.cfg))
      (drawn { chunkFilled (rxBytes s (chunkBytes s.cfg)) s with prod.splitIdx := 0, prod.pState := .split })) := by
  unfold transferOk memWrite at h
  split at h
  · cases h
  · next s1 hs =>
    split at hs
    · cases hs; cases h; rfl
    · cases hs

theorem transferFail_ok {s t : State} (h : transferFail s = .ok t) :
    t = emit (.spExit .transferFailure) (emit (.xfer s.prod.curChunk false)
      (request (.transfer (chunkBytes s.cfg))
        (drawn { chunkFilled (failedBytes s (chunkBytes s.cfg)) s with prod.pState := .doneFail }))) := by
  unfold transferFail memWrite at h
  split at h
  · cases h
  · next s1 hs =>
    split at hs
    · cases hs; cases h; rfl
    · cases hs

/-! ### The queue -/

/-- The state after FQ.ENQ (R193). -/
def enqueued (d : Desc) (s : State) : State :=
  emit (.enq d.chunk d.slot)
    { s with
      queue.store := cellsSet s.queue.store s.queue.tail [d]
      queue.tail := (s.queue.tail + 1) % s.cfg.qcap
      queue.count := s.queue.count + 1
      ring.refcnt := refSet s.ring.refcnt d.chunk (refGet s d.chunk + 1) }

/-- The state after FQ.DEQ (R194). -/
def dequeued (s : State) : State :=
  emit (.deq (qGet s s.queue.head).chunk (qGet s s.queue.head).slot)
    { s with
      queue.head := (s.queue.head + 1) % s.cfg.qcap
      queue.count := s.queue.count - 1
      ring.refcnt := refSet s.ring.refcnt (qGet s s.queue.head).chunk (refGet s (qGet s s.queue.head).chunk - 1)
      out.deq := some (qGet s s.queue.head) }

theorem fqEnqOp_eq (d : Desc) (s : State) (hd : descOk s.cfg d = true) (ht : s.queue.tail < s.cfg.qcap) :
    fqEnqOp d s = .ok (enqueued d s) := by
  unfold fqEnqOp; rw [if_pos hd, if_pos ht]; rfl

theorem fqEnqOp_ok {d : Desc} {s t : State} (h : fqEnqOp d s = .ok t) :
    descOk s.cfg d = true ∧ s.queue.tail < s.cfg.qcap ∧ t = enqueued d s := by
  unfold fqEnqOp at h
  split at h
  · next hd =>
    split at h
    · next ht => cases h; exact ⟨hd, ht, rfl⟩
    · cases h
  · cases h

theorem fqDeqOp_eq (s : State) (h : s.queue.head < s.cfg.qcap) :
    fqDeqOp s = .ok (qGet s s.queue.head, dequeued s) := by
  unfold fqDeqOp; rw [if_pos h]; rfl

theorem fqDeqOp_ok {s t : State} {d : Desc} (h : fqDeqOp s = .ok (d, t)) :
    s.queue.head < s.cfg.qcap ∧ d = qGet s s.queue.head ∧ t = dequeued s := by
  unfold fqDeqOp at h
  split at h
  · next hh => cases h; exact ⟨hh, rfl, rfl⟩
  · cases h

theorem qGet_enqueued (d : Desc) (s : State) (e : Nat) :
    qGet (enqueued d s) e = if e = s.queue.tail then d else qGet s e := by
  unfold qGet enqueued
  simp only [emit_queue, emit_env]
  rw [cellGet_cellsSet]
  by_cases h : e = s.queue.tail
  · subst h; simp
  · rw [if_neg (by simp only [List.length_cons, List.length_nil]; omega), if_neg h]

/-- ENQ appends at the tail of the queue (R28, R193). -/
theorem queued_enqueued (d : Desc) (s : State) (hc : s.queue.count < s.cfg.qcap)
    (ht : s.queue.tail = (s.queue.head + s.queue.count) % s.cfg.qcap) :
    queued (enqueued d s) = queued s ++ [d] := by
  have hq : (enqueued d s).queue.count = s.queue.count + 1 := rfl
  have hh : (enqueued d s).queue.head = s.queue.head := rfl
  have hg : (enqueued d s).cfg = s.cfg := rfl
  unfold queued
  rw [hq, hh, hg, List.range_succ, List.map_append, List.map_singleton]
  congr 1
  · apply List.map_congr_left
    intro i hi
    have hi' := List.mem_range.mp hi
    rw [qGet_enqueued, if_neg]
    rw [ht]
    intro e
    have e1 := Nat.mod_add_div (s.queue.head + i) s.cfg.qcap
    have e2 := Nat.mod_add_div (s.queue.head + s.queue.count) s.cfg.qcap
    have hlt : s.queue.count - i < s.cfg.qcap := by omega
    have hmod : (s.queue.count - i) % s.cfg.qcap = 0 := by
      have := (Nat.modEq_iff_dvd' (show s.queue.head + i ≤ s.queue.head + s.queue.count by omega)).mp e
      have h3 : s.queue.head + s.queue.count - (s.queue.head + i) = s.queue.count - i := by omega
      rw [h3] at this
      exact Nat.mod_eq_zero_of_dvd this
    rw [Nat.mod_eq_of_lt hlt] at hmod
    omega
  · rw [qGet_enqueued, if_pos ht.symm]

/-- DEQ takes the head of the queue (R28, R194). -/
theorem queued_dequeued (s : State) (hc : 0 < s.queue.count) (hh : s.queue.head < s.cfg.qcap) :
    queued s = qGet s s.queue.head :: queued (dequeued s) := by
  obtain ⟨n, hn⟩ : ∃ n, s.queue.count = n + 1 := ⟨s.queue.count - 1, by omega⟩
  have hq : (dequeued s).queue.count = n := by
    show s.queue.count - 1 = n
    omega
  have hd : (dequeued s).queue.head = (s.queue.head + 1) % s.cfg.qcap := rfl
  have hg : (dequeued s).cfg = s.cfg := rfl
  have he : ∀ e, qGet (dequeued s) e = qGet s e := fun _ => rfl
  unfold queued
  rw [hq, hd, hg, hn, List.range_succ_eq_map, List.map_cons, List.map_map]
  congr 1
  · rw [Nat.add_zero, Nat.mod_eq_of_lt hh]
  · apply List.map_congr_left
    intro i _
    simp only [Function.comp, he]
    rw [Nat.mod_add_mod]
    congr 2
    omega

theorem refGet_enqueued (d : Desc) (s : State) (c : Nat) :
    refGet (enqueued d s) c = if c = d.chunk then refGet s d.chunk + 1 else refGet s c := by
  unfold refGet enqueued
  simp only [emit_ring]
  rw [cellGet_refSet]
  rfl

theorem refGet_dequeued (s : State) (c : Nat) :
    refGet (dequeued s) c =
      if c = (qGet s s.queue.head).chunk then refGet s (qGet s s.queue.head).chunk - 1 else refGet s c := by
  unfold refGet dequeued
  simp only [emit_ring]
  rw [cellGet_refSet]
  rfl

/-! ### The producer -/

theorem curFirstByte_eq (s : State) (hc : s.prod.curChunk < s.cfg.n) (hi : s.prod.splitIdx < s.cfg.p) :
    curFirstByte s = .ok (readByte s .arena (s.prod.curChunk * (s.cfg.p * 164) + s.prod.splitIdx * 164)) := by
  have hin := slice_inside s.cfg ⟨s.prod.curChunk, s.prod.splitIdx⟩ (by simp [descOk, hc, hi])
  unfold curFirstByte
  rcases memRead_cases .arena (sliceAddr s.cfg s.prod.curChunk s.prod.splitIdx) 1 s with ⟨_, h⟩ | ⟨h, _⟩
  · rw [h]; rfl
  · simp only at hin; omega

theorem curFirstByte_ok {s : State} {b : Byte} (h : curFirstByte s = .ok b) :
    b = readByte s .arena (s.prod.curChunk * (s.cfg.p * 164) + s.prod.splitIdx * 164) := by
  unfold curFirstByte at h
  rcases memRead_cases .arena (sliceAddr s.cfg s.prod.curChunk s.prod.splitIdx) 1 s with ⟨_, e⟩ | ⟨_, e⟩
  · rw [e] at h; cases h; rfl
  · rw [e] at h; cases h

/-- PF lets the slice under the producer through. -/
theorem pfMatch_slice (s : State) :
    pfMatchOp s (readByte s .arena (s.prod.curChunk * (s.cfg.p * 164) + s.prod.splitIdx * 164)) = false ↔
      SliceKept s := by
  simp [pfMatchOp, isPad, SliceKept]

/-- Everything SP.SPLIT can do, row by row of R198. -/
inductive SplitStep (s : State) : State → Prop
  | ended (h : s.prod.splitIdx = s.cfg.p) :
      SplitStep s (emit (.splitDone s.prod.curChunk) { s with prod.pState := .acq })
  | dropped (h : s.prod.splitIdx ≠ s.cfg.p) (hk : ¬ SliceKept s) :
      SplitStep s (emit (.pfDrop s.prod.curChunk s.prod.splitIdx)
        { s with prod.splitIdx := s.prod.splitIdx + 1, out.pf := some true })
  | cancelled (h : s.prod.splitIdx ≠ s.cfg.p) (hk : SliceKept s) (hc : s.prod.cancel = true) :
      SplitStep s (exitOnCancel { s with out.pf := some false })
  | sent (h : s.prod.splitIdx ≠ s.cfg.p) (hk : SliceKept s) (hc : s.prod.cancel = false)
      (hq : s.queue.count < s.cfg.qcap) (hd : descOk s.cfg (curDesc s) = true) (ht : s.queue.tail < s.cfg.qcap) :
      SplitStep s { enqueued (curDesc s) s with prod.splitIdx := s.prod.splitIdx + 1, out.pf := some false }
  | waits (h : s.prod.splitIdx ≠ s.cfg.p) (hk : SliceKept s) (hc : s.prod.cancel = false)
      (hq : s.cfg.qcap ≤ s.queue.count) : SplitStep s s

theorem splitStep_ok {s t : State} (h : splitStep s = .ok t) : SplitStep s t := by
  unfold splitStep at h
  split at h
  · next hi => cases h; exact .ended hi
  · next hi =>
    split at h
    · cases h
    · next b hb =>
      have hb' := curFirstByte_ok hb
      subst hb'
      split at h
      · next hp => cases h; exact .dropped hi fun hk => by rw [(pfMatch_slice s).mpr hk] at hp; cases hp
      · next hp =>
        have hk := (pfMatch_slice s).mp (by simpa using hp)
        unfold splitQueue at h
        split at h
        · next hc => cases h; exact .cancelled hi hk hc
        · next hc =>
          have hc' : s.prod.cancel = false := by simpa using hc
          split at h
          · next hq =>
            split at h
            · cases h
            · next s1 hs =>
              obtain ⟨hd, ht, rfl⟩ := fqEnqOp_ok hs
              cases h
              exact .sent hi hk hc' (by simpa [enqReady] using hq) hd ht
          · next hq => cases h; exact .waits hi hk hc' (by simpa [enqReady] using hq)

/-- Where the indices are in range and FQ is consistent, SP.SPLIT answers a next state. -/
theorem splitStep_total (s : State) (hc : s.prod.curChunk < s.cfg.n) (hi : s.prod.splitIdx ≤ s.cfg.p)
    (ht : s.queue.tail < s.cfg.qcap) : ∃ t, splitStep s = .ok t := by
  unfold splitStep
  split
  · exact ⟨_, rfl⟩
  · next hne =>
    have hlt : s.prod.splitIdx < s.cfg.p := by omega
    rw [curFirstByte_eq s hc hlt]
    simp only
    split
    · exact ⟨_, rfl⟩
    · unfold splitQueue
      split
      · exact ⟨_, rfl⟩
      · split
        · rw [fqEnqOp_eq _ _ (by simp [descOk, curDesc, hc, hlt]) ht]; exact ⟨_, rfl⟩
        · exact ⟨_, rfl⟩

/-! ### The controller -/

/-- The end of RETRIEVE_FRAME (R233). -/
theorem endRetrieve_retrieve (st : Status) (isOpen : Bool) (s : State) (h : s.ctl.cmd = .retrieveFrame) :
    endRetrieve st isOpen s =
      answer st { emit (.retrieveCmd st)
        { s with
          tim.dlArmed := false
          ctl.scState := if isOpen then .opened else .closed
          stat.status := st } with ctl.cmd := .none } := by
  simp [endRetrieve, h, respond, emitCmd]

/-- The end of SNAPSHOT's retrieving part with the session open (R233, R236). -/
theorem endRetrieve_snapshot_open (st : Status) (s : State) (h : s.ctl.cmd ≠ .retrieveFrame) :
    endRetrieve st true s =
      { spCancelOp { s with tim.dlArmed := false, ctl.snapStatus := st, ctl.snapPhase := .closing } with
        ctl.scState := .clJoin } := by
  simp [endRetrieve, h]

/-- The end of SNAPSHOT after a failed reconnect (R233, R236). -/
theorem endRetrieve_snapshot_closed (st : Status) (s : State) (h : s.ctl.cmd = .snapshot) :
    endRetrieve st false s =
      answer st { emit (.snapshotCmd st)
        { s with
          tim.dlArmed := false
          ctl.snapStatus := st
          ctl.scState := .closed
          stat.status := st } with ctl.cmd := .none } := by
  simp [endRetrieve, h, respond, emitCmd]

/-- Everything a turn of the retrieval loop can do (R234). -/
theorem consumeStep_ok {s t : State} (h : consumeStep s = .ok t) :
    (s.tim.dlFired = true ∧ t = endRetrieve .errTimeout true (emit (.consume .timeout) s)) ∨
      (s.tim.dlFired = false ∧ s.prod.pState = .doneFail ∧
        t = raiseResync .pipelineStopped (emit (.consume .pipelineStopped) s)) ∨
      (s.tim.dlFired = false ∧ s.prod.pState ≠ .doneFail ∧ 0 < s.queue.count ∧ s.queue.head < s.cfg.qcap ∧
        ∃ pkt, readSlice (qGet s s.queue.head) s = .ok pkt ∧
          consumePacket pkt (dequeued (emit (.consume .packet) s)) = .ok t) ∨
      (s.tim.dlFired = false ∧ s.prod.pState ≠ .doneFail ∧ s.queue.count = 0 ∧ t = s) := by
  unfold consumeStep at h
  split at h
  · next hd => cases h; exact .inl ⟨hd, rfl⟩
  · next hd =>
    have hd' : s.tim.dlFired = false := by simpa using hd
    split at h
    · next hp => cases h; exact .inr (.inl ⟨hd', hp, rfl⟩)
    · next hp =>
      split at h
      · next hq =>
        split at h
        · cases h
        · next d s1 hs =>
          obtain ⟨hh, rfl, rfl⟩ := fqDeqOp_ok hs
          split at h
          · cases h
          · next pkt hr =>
            exact .inr (.inr (.inl ⟨hd', hp, by simpa [deqValid] using hq, hh, pkt, hr, h⟩))
      · next hq => cases h; exact .inr (.inr (.inr ⟨hd', hp, by simpa [deqValid] using hq, rfl⟩))

theorem readSlice_eq (d : Desc) (s : State) (h : descOk s.cfg d = true) :
    readSlice d s = .ok (readBytes s .arena (sliceAddr s.cfg d.chunk d.slot) 164) := by
  unfold readSlice
  rcases memRead_cases .arena (sliceAddr s.cfg d.chunk d.slot) Config.pktBytes s with ⟨_, e⟩ | ⟨e, _⟩
  · exact e
  · have := slice_inside s.cfg d h
    simp only [Config.pktBytes] at e; omega

theorem readSlice_length {d : Desc} {s : State} {pkt : List Byte} (h : readSlice d s = .ok pkt) :
    pkt.length = 164 := by
  unfold readSlice at h
  rcases memRead_cases .arena (sliceAddr s.cfg d.chunk d.slot) Config.pktBytes s with ⟨_, e⟩ | ⟨_, e⟩
  · rw [e] at h; cases h; simp
  · rw [e] at h; cases h

/-- A packet handed to PV and FA is its class of the decode table performed (R109, R141, R234). -/
theorem exec_decodePv (pkt : List Byte) (s : State) :
    exec (decodePv pkt) s = outcome (consumePacket pkt s) := by
  unfold decodePv consumePacket validate
  simp only
  by_cases hf : hdrFatal (pktHdr pkt) = true
  · rw [if_pos hf, if_pos (show (pktHdr pkt).getLsbD 15 = true from hf)]; rfl
  · rw [if_neg hf, if_neg (show ¬ (pktHdr pkt).getLsbD 15 = true from hf)]
    by_cases hn : Config.maxPn < (hdrPn (pktHdr pkt)).toNat
    · rw [if_pos hn, if_pos hn]; rfl
    · rw [if_neg hn, if_neg hn]
      have hb4 : byteAt pkt 4 = byteAt (pktPay pkt) 0 := by simp [byteAt, pktPay]
      have hb5 : byteAt pkt 5 = byteAt (pktPay pkt) 1 := by simp [byteAt, pktPay]
      by_cases h0 : hdrPn (pktHdr pkt) = 0
      · rw [if_pos h0, hb4, hb5, payStartZero]
        by_cases hz : byteAt (pktPay pkt) 0 = 0 ∧ byteAt (pktPay pkt) 1 = 0
        · rw [if_pos (by simp [hz.1, hz.2]), if_pos ⟨h0, hz.1, hz.2⟩]; rfl
        · rw [if_neg (by simpa using hz), if_neg fun e => hz e.2, h0]; rfl
      · rw [if_neg h0, if_neg (show ¬(hdrPn (pktHdr pkt) = 0 ∧ byteAt pkt 4 = 0 ∧ byteAt pkt 5 = 0) from
          fun e => h0 e.1)]
        by_cases h20 : hdrPn (pktHdr pkt) = 20
        · rw [if_pos h20, h20]; rfl
        · rw [if_neg h20]
          by_cases h59 : hdrPn (pktHdr pkt) = 59
          · rw [if_pos h59, h59]; rfl
          · rw [if_neg h59]; rfl

/-! ### The step -/

/-- A step of the schedule, by the kind of its line (R10). -/
theorem step_next {s t : State} (h : step s = .next t) :
    (∃ i, fetch (nextLine s).2 (nextLine s).1 = .run i ∧ exec i (nextLine s).2 = .next t) ∨
      (fetch (nextLine s).2 (nextLine s).1 = .wait ∧ t = (nextLine s).2) ∨
      (∃ w, (nextLine s).1 = .write w ∧ hostWrite w (nextLine s).2 = .ok t) := by
  unfold step runFetched at h
  split at h
  · next i hf => exact .inl ⟨i, hf, h⟩
  · next hf => cases h; exact .inr (.inl ⟨hf, rfl⟩)
  · next w hf =>
    refine .inr (.inr ⟨w, ?_, ?_⟩)
    · unfold fetch at hf
      split at hf
      · split at hf <;> cases hf
      · unfold fetchOp at hf; split at hf <;> cases hf
      · unfold fetchOp at hf; split at hf <;> cases hf
      · next w' hl => cases hf; exact hl
    · revert h; unfold outcome; cases hostWrite w (nextLine s).2 with
      | ok x => intro h; cases h; rfl
      | error f => intro h; cases h
  · cases h

theorem outcome_next {r : Except Fault State} {t : State} : outcome r = .next t ↔ r = .ok t := by
  cases r <;> simp [outcome]

/-- Everything a write of the host can do: nothing outside `S_CLOSED`, one configuration register in it, or one word of
DEST. -/
theorem hostWrite_ok {w : HostWrite} {s t : State} (h : hostWrite w s = .ok t) :
    (t = s ∧ s.ctl.scState ≠ .closed ∧ configWrite w ≠ none) ∨
      (s.ctl.scState = .closed ∧
        ((∃ v, w = .padMask v ∧ t = { s with regs.padMask := v }) ∨
          (∃ v, w = .padPattern v ∧ t = { s with regs.padPattern := v }) ∨
          (∃ ms, w = .deadline ms ∧ t = { s with regs.deadline := ms }) ∨
          ∃ ms, w = .backoff ms ∧ t = { s with regs.backoff := ms })) ∨
      ∃ a v, w = .dest a v ∧ a < Config.destWords ∧ t = { s with dest := cellsSet s.dest a [v] } := by
  by_cases hc : s.ctl.scState = .closed <;> cases w <;> simp only [hostWrite, hc, if_true, if_false] at h
  all_goals first
    | (cases h; simp [hc, configWrite])
    | (split at h
       · next ha => cases h; exact .inr (.inr ⟨_, _, rfl, ha, rfl⟩)
       · cases h)

/-- Taking a line of the schedule changes the model's own inputs only. -/
theorem nextLine_rest (s : State) :
    (nextLine s).2.cfg = s.cfg ∧ (nextLine s).2.fa = s.fa ∧ (nextLine s).2.ring = s.ring ∧
      (nextLine s).2.queue = s.queue ∧ (nextLine s).2.prod = s.prod ∧ (nextLine s).2.ctl = s.ctl ∧
      (nextLine s).2.tim = s.tim ∧ (nextLine s).2.regs = s.regs ∧ (nextLine s).2.stat = s.stat ∧
      (nextLine s).2.dest = s.dest ∧ (nextLine s).2.out = s.out ∧ (nextLine s).2.env.trIn = s.env.trIn ∧
      (nextLine s).2.env.epoch = s.env.epoch := by
  unfold nextLine
  split <;> simp

end Sys2Proof.Laws
end

