-- ==== Sys2Proof/Laws/PerInstr.lean ====
section
/-!
SUPPORT. A fact about every instruction as syntax: the code of a well-formed instruction has a length its format
allows.
-/

namespace Sys2Proof.Laws.LineShape

-- One thread for the many small proofs: each further thread reserves its own stack.
set_option Elab.async false

/-- The lengths a format allows: 164 bytes of a packet (R100), one byte of a command (R114) or of a FARES code (R113),
a code byte and at most a packet of operand (R117), two bytes of a PVRES code and at most a payload (R112), and no
byte of the power-on event (R310). -/
def lengthOk (c : Code) : Prop :=
  match c.fmt with
  | .hdr16 => c.bytes.length = 164
  | .cmd3 => c.bytes.length = 1
  | .op5 => 1 ≤ c.bytes.length ∧ c.bytes.length ≤ 165
  | .pvres9 => c.bytes.length = 2 ∨ c.bytes.length = 162
  | .fares4 => c.bytes.length = 1
  | .powerOn => c.bytes.length = 0

/-- A well-formed instruction is encoded in a length of its format. -/
def Statement (i : Instr) : Prop := ∀ mask pattern : Byte, wellFormed mask pattern i = true → lengthOk (encode i)

theorem packet_length (hdr crc : BitVec 16) (pay : List Byte) (h : payOk pay = true) :
    lengthOk ⟨.hdr16, packetBytes hdr crc pay⟩ := by
  simp only [payOk, Config.payBytes, beq_iff_eq] at h
  simp [lengthOk, packetBytes, be16Bytes, h]

theorem short {m n : Nat} (h : Nat.ble m n = true) : m ≤ n := Nat.le_of_ble_eq_true h

theorem pad (hdr : BitVec 16) (crc : BitVec 16) (pay : List Byte) : Statement (.pad hdr crc pay) := by
  intro mask pattern h
  apply packet_length
  simp_all [wellFormed]

theorem fatal (t : BitVec 3) (pn : BitVec 12) (crc : BitVec 16) (pay : List Byte) : Statement (.fatal t pn crc pay) := by
  intro mask pattern h
  apply packet_length
  simp_all [wellFormed]

theorem badnum (t : BitVec 3) (pn : BitVec 12) (crc : BitVec 16) (pay : List Byte) : Statement (.badnum t pn crc pay) := by
  intro mask pattern h
  apply packet_length
  simp_all [wellFormed]

theorem blank (t : BitVec 3) (crc : BitVec 16) (pay : List Byte) : Statement (.blank t crc pay) := by
  intro mask pattern h
  apply packet_length
  simp_all [wellFormed]

theorem data0 (t : BitVec 3) (crc : BitVec 16) (pay : List Byte) : Statement (.data0 t crc pay) := by
  intro mask pattern h
  apply packet_length
  simp_all [wellFormed]

theorem data20 (t : BitVec 3) (crc : BitVec 16) (pay : List Byte) : Statement (.data20 t crc pay) := by
  intro mask pattern h
  apply packet_length
  simp_all [wellFormed]

theorem data59 (t : BitVec 3) (crc : BitVec 16) (pay : List Byte) : Statement (.data59 t crc pay) := by
  intro mask pattern h
  apply packet_length
  simp_all [wellFormed]

theorem data (t : BitVec 3) (n : BitVec 6) (crc : BitVec 16) (pay : List Byte) : Statement (.data t n crc pay) := by
  intro mask pattern h
  apply packet_length
  simp_all [wellFormed]

theorem cmdOpen : Statement .cmdOpen := fun _ _ _ => rfl

theorem cmdClose : Statement .cmdClose := fun _ _ _ => rfl

theorem cmdRetrieveFrame : Statement .cmdRetrieveFrame := fun _ _ _ => rfl

theorem cmdSnapshot : Statement .cmdSnapshot := fun _ _ _ => rfl

theorem reserved0 : Statement .reserved0 := fun _ _ _ => rfl

theorem reserved5 : Statement .reserved5 := fun _ _ _ => rfl

theorem reserved6 : Statement .reserved6 := fun _ _ _ => rfl

theorem reserved7 : Statement .reserved7 := fun _ _ _ => rfl

theorem pfMatch (b0 : Byte) : Statement (.pfMatch b0) := fun _ _ _ => ⟨short rfl, short rfl⟩

theorem pvValidate (pkt : List Byte) : Statement (.pvValidate pkt) := by
  intro mask pattern h
  simp only [wellFormed, Config.pktBytes, beq_iff_eq] at h
  simp [encode, opCode, lengthOk, h]

theorem faAccept (pn : BitVec 6) (pay : List Byte) : Statement (.faAccept pn pay) := by
  intro mask pattern h
  simp only [wellFormed, payOk, Config.payBytes, beq_iff_eq] at h
  simp [encode, opCode, lengthOk, h]

theorem faReset : Statement .faReset := fun _ _ _ => ⟨short rfl, short rfl⟩

theorem faWriteImage : Statement .faWriteImage := fun _ _ _ => ⟨short rfl, short rfl⟩

theorem rbNextChunk : Statement .rbNextChunk := fun _ _ _ => ⟨short rfl, short rfl⟩

theorem spTransfer : Statement .spTransfer := fun _ _ _ => ⟨short rfl, short rfl⟩

theorem spSplit : Statement .spSplit := fun _ _ _ => ⟨short rfl, short rfl⟩

theorem fqEnq (chunk : BitVec 32) (slot : BitVec 32) : Statement (.fqEnq chunk slot) := fun _ _ _ => ⟨short rfl, short rfl⟩

theorem fqDeq : Statement .fqDeq := fun _ _ _ => ⟨short rfl, short rfl⟩

theorem fqFlush : Statement .fqFlush := fun _ _ _ => ⟨short rfl, short rfl⟩

theorem spStart : Statement .spStart := fun _ _ _ => ⟨short rfl, short rfl⟩

theorem spCancel : Statement .spCancel := fun _ _ _ => ⟨short rfl, short rfl⟩

theorem spExit (reason : ExitReason) : Statement (.spExit reason) := fun _ _ _ => ⟨short rfl, short rfl⟩

theorem scOpen : Statement .scOpen := fun _ _ _ => ⟨short rfl, short rfl⟩

theorem scClose : Statement .scClose := fun _ _ _ => ⟨short rfl, short rfl⟩

theorem scRetrieveFrame : Statement .scRetrieveFrame := fun _ _ _ => ⟨short rfl, short rfl⟩

theorem scSnapshot : Statement .scSnapshot := fun _ _ _ => ⟨short rfl, short rfl⟩

theorem scResync (cause : Cause) : Statement (.scResync cause) := fun _ _ _ => ⟨short rfl, short rfl⟩

theorem scConsume : Statement .scConsume := fun _ _ _ => ⟨short rfl, short rfl⟩

theorem tmFire : Statement .tmFire := fun _ _ _ => ⟨short rfl, short rfl⟩

theorem tmBackoffEnd : Statement .tmBackoffEnd := fun _ _ _ => ⟨short rfl, short rfl⟩

theorem scReject (code : BitVec 3) : Statement (.scReject code) := fun _ _ _ => ⟨short rfl, short rfl⟩

theorem reset : Statement .reset := fun _ _ _ => rfl

theorem pvresSequenceNumber (n : BitVec 6) (pay : List Byte) : Statement (.pvresSequenceNumber n pay) := by
  intro mask pattern h
  simp only [wellFormed, payOk, Config.payBytes, beq_iff_eq] at h
  simp [encode, pvresWord, be16Bytes, lengthOk, h]

theorem pvresDiscard : Statement .pvresDiscard := fun _ _ _ => .inl rfl

theorem pvresErrorFlag : Statement .pvresErrorFlag := fun _ _ _ => .inl rfl

theorem pvresInvalidPacketNumber : Statement .pvresInvalidPacketNumber := fun _ _ _ => .inl rfl

theorem faresIncomplete : Statement .faresIncomplete := fun _ _ _ => rfl

theorem faresComplete : Statement .faresComplete := fun _ _ _ => rfl

theorem faresOutOfOrderPacket : Statement .faresOutOfOrderPacket := fun _ _ _ => rfl

theorem faresInvalidSegmentOrdinal : Statement .faresInvalidSegmentOrdinal := fun _ _ _ => rfl

theorem faresOutOfOrderSegment : Statement .faresOutOfOrderSegment := fun _ _ _ => rfl

end Sys2Proof.Laws.LineShape
end

