-- ==== Sys2Proof/Tests/Slice0.lean ====
section
/-!
SUPPORT. The tests of the model. Expected values come from the encoding tables of 30_encoding.md and the vectors of
95_test_vectors.md (their ids stand in the docstrings). A `witness_` theorem shows states and operands that meet the
hypotheses of an obligation, clause by clause.
-/

namespace Sys2Proof.Tests

-- One thread for the kernel's evaluations: each further thread reserves its own stack.
set_option Elab.async false

open Sys2Proof Sys2Proof.Machine Sys2Proof.Safety

/-! ### Packets and states -/

/-- `n` bytes: those listed, then zeros. -/
def fill (n : Nat) (bs : List Byte) : List Byte := bs ++ List.replicate (n - bs.length) 0

/-- A packet: the listed bytes, then zeros, as 95_test_vectors.md writes them. -/
def pkt (bs : List Byte) : List Byte := fill 164 bs

/-- A payload: the listed bytes, then zeros. -/
def pay (bs : List Byte) : List Byte := fill 160 bs

/-- The payload `00 01` of the vectors. -/
def pay1 : List Byte := pay [0x00, 0x01]

/-- The reset values with `P = 4`, `N = 2`, `QCAP = 2` and TRACE, the parameters of program P3. -/
def base : State := { State.reset with cfg := ⟨3, 9, 1, 1, true, 0x0F, 0x0F, ⟨1, 2, 3⟩⟩ }

/-- FA at `last_pn`, `seg_ord`, with empty buffers. -/
def faAt (l : Option (BitVec 6)) (o : BitVec 3) : State := { base with fa := ⟨l, o, [], []⟩ }

/-- The producer at `p_state` with `cancel`, `cur_chunk` and `split_idx`. -/
def prodAt (p : PState) (c : Bool) (chunk idx : Nat) (s : State) : State := { s with prod := ⟨c, p, chunk, idx⟩ }

/-- The controller at `sc_state` with a command in progress; the transport is open. -/
def ctlAt (sc : ScState) (cmd : Cmd) (s : State) : State := { s with ctl := ⟨sc, cmd, .retr, .ok, true⟩ }

/-- The queue holds descriptors from entry 0 on, and the chunks' reference counts are as listed. -/
def queueOf (ds : List Desc) (refs : List (Nat × Nat)) (s : State) : State :=
  { s with queue := ⟨cellsFrom 0 ds, 0, ds.length % s.cfg.qcap, ds.length⟩, ring.refcnt := refs }

/-- A packet stands in ARENA at slice `(chunk, slot)`. -/
def sliceAt (chunk slot : Nat) (bs : List Byte) (s : State) : State :=
  { s with ring.arena := cellsFrom (sliceAddr s.cfg chunk slot) bs }

/-- The transport will answer so. -/
def answering (a : TrAnswer) (s : State) : State := { s with env.trIn := [a] }

/-- A retrieval is running and the producer is waiting for a chunk. -/
def retrieval : State := prodAt .acq false 0 0 (ctlAt .retr .retrieveFrame base)

/-- `exec` answers a next state that passes a check. -/
def after (i : Instr) (s : State) (q : State → Bool) : Bool :=
  match exec i s with
  | .next t => q t
  | .fault _ => false
  | .refused _ => false

/-! ### Well-formed terms: each check refuses an ill-formed one -/

theorem test_wf_pad_must_match : wellFormed 0x0F 0x0F (.pad 0x0E00 0 pay1) = false := by decide +kernel
theorem test_wf_fatal_must_not_be_padding : wellFormed 0x0F 0x0F (.fatal 0 0xF00 0 pay1) = false := by decide +kernel
theorem test_wf_badnum_is_above_59 : wellFormed 0x0F 0x0F (.badnum 0 59 0 pay1) = false := by decide +kernel
theorem test_wf_blank_starts_with_zeros : wellFormed 0x0F 0x0F (.blank 0 0 pay1) = false := by decide +kernel
theorem test_wf_data0_starts_with_no_zeros : wellFormed 0x0F 0x0F (.data0 0 0 (pay [])) = false := by decide +kernel
theorem test_wf_data20_under_a_zero_mask : wellFormed 0x00 0x0F (.data20 0 0 pay1) = false := by decide +kernel
theorem test_wf_data59_needs_160_bytes : wellFormed 0x0F 0x0F (.data59 0 0 (fill 159 [])) = false := by decide +kernel
theorem test_wf_data_has_its_own_numbers :
    wellFormed 0x0F 0x0F (.data 0 20 0 pay1) = false ∧ wellFormed 0x0F 0x0F (.data 0 59 0 pay1) = false ∧
      wellFormed 0x0F 0x0F (.data 0 0 0 pay1) = false ∧ wellFormed 0x0F 0x0F (.data 0 58 0 pay1) = true := by
  decide +kernel
theorem test_wf_validate_needs_164_bytes : wellFormed 0x0F 0x0F (.pvValidate (fill 163 [])) = false := by decide +kernel
theorem test_wf_accept_needs_160_bytes : wellFormed 0x0F 0x0F (.faAccept 0 (fill 161 [])) = false := by decide +kernel
theorem test_wf_result_needs_160_bytes : wellFormed 0x0F 0x0F (.pvresSequenceNumber 0 []) = false := by decide +kernel

/-! ### Decoding: one word written out for every constructor -/

/-- Packets under the default padding registers. -/
def decPkt (bs : List Byte) : Except DecodeError Instr := decode 0x0F 0x0F ⟨.hdr16, pkt bs⟩

/-- An operation's bytes. -/
def decOp (bs : List Byte) : Except DecodeError Instr := decode 0x0F 0x0F ⟨.op5, bs⟩

/-- A command's byte. -/
def decCmd (b : Byte) : Except DecodeError Instr := decode 0x0F 0x0F ⟨.cmd3, [b]⟩

/-- V-PF-2: byte FF matches the default pattern, the fatal flag is not looked at (R105, R109). -/
theorem test_decode_pad : decPkt [0xFF, 0x12, 0x34, 0x56, 0x78] = .ok (.pad 0xFF12 0x3456 (pay [0x78])) := by
  decide +kernel
/-- `80 03` (R109); header bits 14:12 are `t`. -/
theorem test_decode_fatal : decPkt [0xD0, 0x03, 0xAB, 0xCD, 0x00, 0x01] = .ok (.fatal 5 3 0xABCD pay1) := by
  decide +kernel
/-- V-PV-7 and V-PV-10: 60 and 2048. -/
theorem test_decode_badnum :
    decPkt [0x00, 0x3C] = .ok (.badnum 0 60 0 (pay [])) ∧ decPkt [0x08, 0x00] = .ok (.badnum 0 0x800 0 (pay [])) := by
  decide +kernel
/-- V-PV-1 and V-PV-16. -/
theorem test_decode_blank :
    decPkt [] = .ok (.blank 0 0 (pay [])) ∧ decPkt [0x10, 0x00] = .ok (.blank 1 0 (pay [])) := by decide +kernel
/-- V-PV-2 and V-PV-3: one zero byte of the two is not blank. -/
theorem test_decode_data0 :
    decPkt [0x00, 0x00, 0x00, 0x00, 0x00, 0x01] = .ok (.data0 0 0 pay1) ∧
      decPkt [0x00, 0x00, 0x00, 0x00, 0x01, 0x00] = .ok (.data0 0 0 (pay [0x01])) := by decide +kernel
/-- V-PV-15: bits 14 to 12 are ignored. -/
theorem test_decode_data20 : decPkt [0x70, 0x14, 0x00, 0x00, 0x00, 0x01] = .ok (.data20 7 0 pay1) := by decide +kernel
/-- V-PV-6. -/
theorem test_decode_data59 : decPkt [0x00, 0x3B] = .ok (.data59 0 0 (pay [])) := by decide +kernel
/-- V-PV-4: the blank test applies to number 0 only; 58 is the last plain number. -/
theorem test_decode_data :
    decPkt [0x00, 0x01] = .ok (.data 0 1 0 (pay [])) ∧ decPkt [0x00, 0x3A] = .ok (.data 0 58 0 (pay [])) := by
  decide +kernel
/-- The command codes (R114); the port is 3 bits wide. -/
theorem test_decode_commands :
    decCmd 0 = .ok .reserved0 ∧ decCmd 1 = .ok .cmdOpen ∧ decCmd 2 = .ok .cmdClose ∧ decCmd 3 = .ok .cmdRetrieveFrame ∧
      decCmd 4 = .ok .cmdSnapshot ∧ decCmd 5 = .ok .reserved5 ∧ decCmd 6 = .ok .reserved6 ∧
      decCmd 7 = .ok .reserved7 ∧ decCmd 8 = .error .commandOutOfRange := by decide +kernel
/-- The operations of PF, PV and FA (R117). -/
theorem test_decode_units :
    decOp [0x01, 0x2F] = .ok (.pfMatch 0x2F) ∧ decOp (0x02 :: pkt [0x80]) = .ok (.pvValidate (pkt [0x80])) ∧
      decOp (0x03 :: 0x3B :: pay1) = .ok (.faAccept 59 pay1) ∧ decOp [0x04] = .ok .faReset ∧
      decOp [0x05] = .ok .faWriteImage := by decide +kernel
/-- The operations of RB, SP and FQ (R117). -/
theorem test_decode_pipeline :
    decOp [0x06] = .ok .rbNextChunk ∧ decOp [0x07] = .ok .spTransfer ∧ decOp [0x08] = .ok .spSplit ∧
      decOp [0x09, 0, 0, 0, 1, 0, 0, 0, 2] = .ok (.fqEnq 1 2) ∧ decOp [0x0A] = .ok .fqDeq ∧
      decOp [0x0B] = .ok .fqFlush ∧ decOp [0x0C] = .ok .spStart ∧ decOp [0x0D] = .ok .spCancel ∧
      decOp [0x0E, 0] = .ok (.spExit .cancel) ∧ decOp [0x0E, 1] = .ok (.spExit .transferFailure) := by decide +kernel
/-- The operations of SC and TM (R117). -/
theorem test_decode_control :
    decOp [0x10] = .ok .scOpen ∧ decOp [0x11] = .ok .scClose ∧ decOp [0x12] = .ok .scRetrieveFrame ∧
      decOp [0x13] = .ok .scSnapshot ∧ decOp [0x14, 6] = .ok (.scResync .pipelineStopped) ∧
      decOp [0x14, 0] = .ok (.scResync .none) ∧ decOp [0x16] = .ok .scConsume ∧ decOp [0x17] = .ok .tmFire ∧
      decOp [0x18] = .ok .tmBackoffEnd ∧ decOp [0x19, 5] = .ok (.scReject 5) := by decide +kernel
/-- The power-on event has no code (R310). -/
theorem test_decode_reset : decode 0x0F 0x0F ⟨.powerOn, []⟩ = .ok .reset := by decide +kernel
/-- The codes of V-PV-4, V-PV-1, V-PV-12 and V-PV-7 (R112). -/
theorem test_decode_pvres :
    decode 0x0F 0x0F ⟨.pvres9, 0x00 :: 0x01 :: pay1⟩ = .ok (.pvresSequenceNumber 1 pay1) ∧
      decode 0x0F 0x0F ⟨.pvres9, [0x00, 0x80]⟩ = .ok .pvresDiscard ∧
      decode 0x0F 0x0F ⟨.pvres9, [0x01, 0x00]⟩ = .ok .pvresErrorFlag ∧
      decode 0x0F 0x0F ⟨.pvres9, [0x01, 0x40]⟩ = .ok .pvresInvalidPacketNumber := by decide +kernel
/-- FARES (R113). -/
theorem test_decode_fares :
    decode 0x0F 0x0F ⟨.fares4, [0x0]⟩ = .ok .faresIncomplete ∧ decode 0x0F 0x0F ⟨.fares4, [0x4]⟩ = .ok .faresComplete ∧
      decode 0x0F 0x0F ⟨.fares4, [0x8]⟩ = .ok .faresOutOfOrderPacket ∧
      decode 0x0F 0x0F ⟨.fares4, [0x9]⟩ = .ok .faresInvalidSegmentOrdinal ∧
      decode 0x0F 0x0F ⟨.fares4, [0xA]⟩ = .ok .faresOutOfOrderSegment := by decide +kernel
/-- Codes and patterns the tables do not hold are refused by name (R112, R113, R116, R117). -/
theorem test_decode_refusals :
    decOp [0x0F] = .error .noSuchOperation ∧ decOp [0x15] = .error .noSuchOperation ∧
      decOp [0x14, 7] = .error .operandOutOfRange ∧ decOp [0x06, 0] = .error .wrongLength ∧
      decode 0x0F 0x0F ⟨.pvres9, [0x00, 0x81]⟩ = .error .reservedResult ∧
      decode 0x0F 0x0F ⟨.fares4, [0xB]⟩ = .error .reservedResult ∧
      decode 0x0F 0x0F ⟨.hdr16, [0x00, 0x14]⟩ = .error .wrongLength := by decide +kernel

/-! ### PF, PV and FA, one step each (sections 2.1 to 2.3 of 95_test_vectors.md) -/

/-- V-PF-1, V-PF-4 and V-PF-5. -/
theorem test_pf_match :
    after (.pfMatch 0x0F) base (fun t => t.out.pf == some true) = true ∧
      after (.pfMatch 0x2F) base (fun t => t.out.pf == some true && t.out.trace == [.pfDrop 0 0]) = true ∧
      after (.pfMatch 0x0E) base (fun t => t.out.pf == some false && t.out.trace == []) = true := by decide +kernel
/-- V-PF-11 and V-PF-12: other registers. -/
theorem test_pf_match_registers :
    after (.pfMatch 0x00) { base with regs.padMask := 0xFF, regs.padPattern := 0x00 } (fun t => t.out.pf == some true)
        = true ∧
      after (.pfMatch 0x1F) { base with regs.padPattern := 0xFF } (fun t => t.out.pf == some true) = true := by
  decide +kernel
/-- V-PV-1, V-PV-3, V-PV-4 and V-PV-6. -/
theorem test_pv_validate :
    validate (pkt []) = .discard ∧ validate (pkt [0, 0, 0, 0, 1, 0]) = .sequenceNumber 0 ∧
      validate (pkt [0x00, 0x01]) = .sequenceNumber 1 ∧ validate (pkt [0x00, 0x3B]) = .sequenceNumber 59 := by
  decide +kernel
/-- V-PV-7, V-PV-8, V-PV-13, V-PV-15 and V-PV-19, and the step. -/
theorem test_pv_validate_fatal :
    validate (pkt [0x00, 0x3C]) = .fatal .invalidPacketNumber ∧ validate (pkt [0x00, 0x40]) = .fatal .invalidPacketNumber ∧
      validate (pkt [0x80, 0x14]) = .fatal .errorFlag ∧ validate (pkt [0x70, 0x14, 0, 0, 0, 1]) = .sequenceNumber 20 ∧
      after (.pvValidate (pkt [0x2F, 0x3B])) base (fun t => t.out.pv == some (.fatal .invalidPacketNumber) &&
        t.ctl.scState == .closed && t.stat.cause == .none) = true := by decide +kernel
/-- FA.ACCEPT gives this result, and then FA stands at this `last_pn` and `seg_ord`. -/
def fa (pn : BitVec 6) (p : List Byte) (s : State) (r : FaRes) (l : Option (BitVec 6)) (o : BitVec 3) : Bool :=
  after (.faAccept pn p) s fun t => t.out.fa == some r && t.fa.lastPn == l && t.fa.segOrd == o
/-- V-FA-1, V-FA-2, V-FA-4, V-FA-6, V-FA-7, V-FA-30 (the sequence check; packet 59 of a pass with ordinal 0). -/
theorem test_fa_accept_sequence :
    fa 0 pay1 (faAt none 0) .incomplete (some 0) 0 = true ∧
      fa 5 pay1 (faAt none 0) (.sequenceError .outOfOrderPacket) none 0 = true ∧
      fa 0 pay1 (faAt (some 0) 0) (.sequenceError .outOfOrderPacket) (some 0) 0 = true ∧
      fa 0 pay1 (faAt (some 59) 0) .incomplete (some 0) 0 = true ∧
      fa 60 pay1 (faAt (some 59) 0) (.sequenceError .outOfOrderPacket) (some 59) 0 = true ∧
      fa 59 pay1 (faAt (some 58) 0) .incomplete (some 59) 0 = true := by decide +kernel
/-- V-FA-11, V-FA-13, V-FA-16, V-FA-17, V-FA-19, V-FA-20 and V-FA-21 (packet 20). -/
theorem test_fa_accept_ordinal :
    fa 20 (pay [0x10, 0x01]) (faAt (some 19) 0) .incomplete (some 20) 1 = true ∧
      fa 20 pay1 (faAt (some 19) 1) .incomplete (some 20) 1 = true ∧
      fa 20 (pay [0x30, 0x01]) (faAt (some 19) 1) (.sequenceError .outOfOrderSegment) (some 19) 1 = true ∧
      fa 20 (pay [0x40]) (faAt (some 19) 3) .incomplete (some 20) 4 = true ∧
      fa 20 (pay [0x10]) (faAt (some 19) 4) (.sequenceError .outOfOrderSegment) (some 19) 4 = true ∧
      fa 20 (pay [0x50]) (faAt (some 19) 4) (.sequenceError .invalidSegmentOrdinal) (some 19) 4 = true ∧
      fa 20 (pay [0xF0]) (faAt (some 19) 2) (.sequenceError .invalidSegmentOrdinal) (some 19) 2 = true := by
  decide +kernel
/-- V-FA-40. -/
theorem test_fa_reset : after .faReset (faAt (some 33) 2) (fun t => t.fa.lastPn == none && t.fa.segOrd == 0) = true := by
  decide +kernel
/-- V-FA-41: bytes 490 and 491 are word 245. -/
theorem test_fa_write_image :
    after .faWriteImage { base with fa.framebuf := [(490, 0x12), (491, 0x34)] } (fun t => readDest t 245 == 0x1234)
      = true := by decide +kernel

/-! ### Packets and results, one step each (sections 2.3 and 2.5, program P1) -/

/-- A retrieval with FA at `last_pn`, `seg_ord`. -/
def retrAt (l : Option (BitVec 6)) (o : BitVec 3) : State := { retrieval with fa := ⟨l, o, [], []⟩ }

/-- The resynchronisation was entered with this cause (R235). -/
def trapped (c : Cause) (t : State) : Bool := t.stat.cause == c && t.prod.cancel && t.ctl.scState == .rsJoin

/-- SC stays in `S_RETR`, with FA at `last_pn`, `seg_ord`. -/
def goesOn (l : Option (BitVec 6)) (o : BitVec 3) (t : State) : Bool :=
  t.ctl.scState == .retr && !t.prod.cancel && t.fa.lastPn == l && t.fa.segOrd == o

/-- S5: padding reaches neither PV nor FA. -/
theorem test_pad : after (.pad 0x0F00 0 (pay [])) (retrAt (some 3) 0) (fun t =>
    goesOn (some 3) 0 t && t.out.pv == none && t.out.pf == some true) = true := by decide +kernel
/-- Program P3: `FATAL 3` raises cause 1. -/
theorem test_fatal : after (.fatal 0 3 0 pay1) (retrAt (some 2) 0) (trapped .errorFlag) = true := by decide +kernel
/-- V-SC-9. -/
theorem test_badnum : after (.badnum 0 60 0 (pay [])) (retrAt (some 2) 0) (trapped .invalidPacketNumber) = true := by
  decide +kernel
/-- V-SC-8. -/
theorem test_blank : after (.blank 0 0 (pay [])) (retrAt (some 59) 0) (fun t =>
    goesOn (some 59) 0 t && t.out.pv == some .discard && t.out.fa == none) = true := by decide +kernel
/-- Program P1: the wrap. -/
theorem test_data0 : after (.data0 0 0 pay1) (retrAt (some 59) 0) (goesOn (some 0) 0) = true := by decide +kernel
/-- V-FA-15, and V-FA-16 in a retrieval. -/
theorem test_data20 :
    after (.data20 0 0 (pay [0x20])) (retrAt (some 19) 1) (goesOn (some 20) 2) = true ∧
      after (.data20 0 0 (pay [0x30])) (retrAt (some 19) 1) (trapped .outOfOrderSegment) = true := by decide +kernel
/-- V-FA-30. -/
theorem test_data59 : after (.data59 0 0 pay1) (retrAt (some 58) 0) (goesOn (some 59) 0) = true := by decide +kernel
/-- V-SC-10: `DATA 59` completes the frame. -/
theorem test_data59_completes : after (.data59 0 0 pay1) (retrAt (some 58) 4) (fun t =>
    t.ctl.scState == .opened && t.out.answers == [.ok] && !t.tim.dlArmed) = true := by decide +kernel
/-- Program P1: 1 then 3. -/
theorem test_data :
    after (.data 0 1 0 pay1) (retrAt (some 0) 0) (goesOn (some 1) 0) = true ∧
      after (.data 0 3 0 pay1) (retrAt (some 1) 0) (trapped .outOfOrderPacket) = true := by decide +kernel
/-- The arms of SC.CONSUME for PV's results (R234). -/
theorem test_pvres :
    after (.pvresSequenceNumber 5 pay1) (retrAt (some 4) 0) (goesOn (some 5) 0) = true ∧
      after .pvresDiscard (retrAt (some 4) 0) (goesOn (some 4) 0) = true ∧
      after .pvresErrorFlag retrieval (trapped .errorFlag) = true ∧
      after .pvresInvalidPacketNumber retrieval (trapped .invalidPacketNumber) = true := by decide +kernel
/-- The arms of SC.CONSUME for FA's results (R234). -/
theorem test_fares :
    after .faresIncomplete (retrAt (some 4) 0) (goesOn (some 4) 0) = true ∧
      after .faresComplete retrieval (fun t => t.ctl.scState == .opened && t.stat.status == .ok) = true ∧
      after .faresOutOfOrderPacket retrieval (trapped .outOfOrderPacket) = true ∧
      after .faresInvalidSegmentOrdinal retrieval (trapped .invalidSegmentOrdinal) = true ∧
      after .faresOutOfOrderSegment retrieval (trapped .outOfOrderSegment) = true := by decide +kernel

/-! ### RB, SP and FQ (section 2.4) -/

/-- V-RB-1 with `N = 3`, V-RB-2 and V-RB-4. -/
theorem test_next_chunk :
    after .rbNextChunk { prodAt .acq false 0 0 base with cfg := ⟨3, 9, 2, 1, true, 0x0F, 0x0F, ⟨1, 2, 3⟩⟩, ring.wrIdx := 2 } (fun t =>
        t.prod.curChunk == 2 && t.ring.wrIdx == 0 && t.prod.pState == .xfer) = true ∧
      after .rbNextChunk { prodAt .acq false 0 0 base with ring.refcnt := [(0, 4), (1, 4)] } (fun t =>
        t.prod.pState == .acq && t.ring.wrIdx == 0) = true ∧
      after .rbNextChunk { prodAt .acq false 0 0 base with cfg := ⟨3, 9, 0, 1, true, 0x0F, 0x0F, ⟨1, 2, 3⟩⟩ } (fun t =>
        t.prod.curChunk == 0 && t.ring.wrIdx == 0) = true := by decide +kernel
/-- V-SP-3: bytes 656 to 1311 are replaced although `cancel` is set. -/
theorem test_transfer : after .spTransfer (answering ⟨true, fill 656 [0xAB]⟩ (prodAt .xfer true 1 3 base)) (fun t =>
    t.prod.pState == .split && t.prod.splitIdx == 0 && readByte t .arena 656 == 0xAB && written t .arena 1311 &&
      !written t .arena 655 && !written t .arena 1312) = true := by decide +kernel
/-- V-SP-2. -/
theorem test_transfer_fails : after .spTransfer (answering ⟨false, []⟩ (prodAt .xfer false 1 0 base)) (fun t =>
    t.prod.pState == .doneFail && t.queue.count == 0) = true := by decide +kernel
/-- V-SP-4, V-SP-5 and V-SP-6. -/
theorem test_split :
    after .spSplit (prodAt .split false 1 4 base) (fun t => t.prod.pState == .acq && t.prod.splitIdx == 4) = true ∧
      after .spSplit (queueOf [⟨0, 0⟩, ⟨0, 1⟩] [(0, 2)] (sliceAt 1 2 [0x0F] (prodAt .split true 1 2 base))) (fun t =>
        t.prod.pState == .split && t.prod.splitIdx == 3 && t.queue.count == 2) = true ∧
      after .spSplit (sliceAt 1 2 [0x00, 0x03] (prodAt .split true 1 2 base)) (fun t =>
        t.prod.pState == .doneCancel && t.queue.count == 0) = true := by decide +kernel
/-- V-SP-7 and V-SP-8. -/
theorem test_split_queues :
    after .spSplit (queueOf [⟨0, 0⟩, ⟨0, 1⟩] [(0, 2)] (sliceAt 1 2 [0x00, 0x03] (prodAt .split false 1 2 base))) (fun t =>
        t.prod.splitIdx == 2 && t.queue.count == 2) = true ∧
      after .spSplit (sliceAt 1 2 [0x80, 0x03] (prodAt .split false 1 2 base)) (fun t =>
        queued t == [⟨1, 2⟩] && refGet t 1 == 1 && t.prod.splitIdx == 3) = true := by decide +kernel
/-- V-FQ-1. -/
theorem test_enq : after (.fqEnq 0 2) (queueOf [⟨0, 1⟩] [(0, 1)] base) (fun t =>
    queued t == [⟨0, 1⟩, ⟨0, 2⟩] && refGet t 0 == 2 && t.queue.count == 2 && t.queue.tail == 0) = true := by
  decide +kernel
/-- V-FQ-2, and V-FQ-3's first half: the head wraps. -/
theorem test_deq :
    after .fqDeq (queueOf [⟨0, 1⟩, ⟨0, 2⟩] [(0, 2)] base) (fun t =>
        t.out.deq == some ⟨0, 1⟩ && queued t == [⟨0, 2⟩] && refGet t 0 == 1) = true ∧
      after .fqDeq { base with queue := ⟨[(0, ⟨0, 2⟩), (1, ⟨0, 1⟩)], 1, 1, 2⟩, ring.refcnt := [(0, 2)] } (fun t =>
        t.queue.head == 0 && t.out.deq == some ⟨0, 1⟩) = true := by decide +kernel
/-- V-FQ-4. -/
theorem test_flush : after .fqFlush (prodAt .doneCancel true 1 4 (queueOf [⟨1, 3⟩] [(1, 1)] base)) (fun t =>
    queued t == [] && refGet t 1 == 0 && t.prod.pState == .idle && t.queue.tail == 0) = true := by decide +kernel
/-- V-SP-9. -/
theorem test_start : after .spStart (ctlAt .rsConn .retrieveFrame { prodAt .idle true 1 3 base with ring.wrIdx := 1 })
    (fun t => !t.prod.cancel && t.ring.wrIdx == 0 && t.prod.splitIdx == 0 && t.prod.pState == .acq) = true := by
  decide +kernel
/-- R197: the signal only. -/
theorem test_cancel : after .spCancel (prodAt .xfer false 1 0 base) (fun t =>
    t.prod.cancel && t.prod.pState == .xfer) = true := by decide +kernel
/-- V-RB-3, and the exit of V-SP-2. -/
theorem test_exit :
    after (.spExit .cancel) { prodAt .acq true 0 0 base with ring.refcnt := [(0, 4), (1, 4)] } (fun t =>
        t.prod.pState == .doneCancel && t.ring.wrIdx == 0) = true ∧
      after (.spExit .transferFailure) (answering ⟨false, []⟩ (prodAt .xfer false 1 0 base)) (fun t =>
        t.prod.pState == .doneFail) = true := by decide +kernel
/-- V-DESC-1, and the sizing rule's instances S10. -/
theorem test_descriptor_and_sizing :
    sliceAddr base.cfg 1 2 = 984 ∧ slotBits base.cfg = 2 ∧ chunkBits base.cfg = 1 ∧ sizedChunks 10 4 = 3 ∧
      sizedChunks 8 4 = 2 ∧ sizedChunks 241 20 = 13 ∧ sizedChunks 1 4 = 1 := by decide +kernel

/-! ### SC, TM and RESET (section 2.5) -/

/-- The session is open and the producer waits for a chunk. -/
def session : State := prodAt .acq false 0 0 (ctlAt .opened .none base)

/-- The answer `ERR_USAGE` and nothing else (R241). -/
def usage (sc : ScState) (t : State) : Bool :=
  t.out.answers == [.errUsage] && t.stat.status == .errUsage && t.ctl.scState == sc && !t.prod.cancel

/-- V-SC-1's first step, and V-SC-5's `open`. -/
theorem test_open :
    after .cmdOpen base (fun t => t.ctl.scState == .opConn && t.out.requests == [.connect ⟨1, 2, 3⟩]) = true ∧
      after .cmdOpen session (usage .opened) = true := by decide +kernel
/-- V-SC-16's first step, and V-SC-3. -/
theorem test_close :
    after .cmdClose session (fun t => t.ctl.scState == .clJoin && t.prod.cancel) = true ∧
      after .cmdClose base (usage .closed) = true := by decide +kernel
/-- Program P3's third step, and V-SC-4. -/
theorem test_retrieve_frame :
    after .cmdRetrieveFrame { session with fa := ⟨some 33, 2, [], []⟩ } (fun t =>
        goesOn none 0 t && t.tim.dlArmed && !t.tim.dlFired) = true ∧
      after .cmdRetrieveFrame base (usage .closed) = true := by decide +kernel
/-- Program P7's first step, and V-SC-5's `snapshot`. -/
theorem test_snapshot :
    after .cmdSnapshot base (fun t => t.ctl.scState == .opConn && t.ctl.snapPhase == .opening) = true ∧
      after .cmdSnapshot session (usage .opened) = true := by decide +kernel
/-- V-SC-5: the codes 0, 5, 6 and 7. -/
theorem test_reserved :
    after .reserved0 session (usage .opened) = true ∧ after .reserved5 session (usage .opened) = true ∧
      after .reserved6 base (usage .closed) = true ∧ after .reserved7 base (usage .closed) = true := by decide +kernel
/-- SC.REJECT (R241): not of a command that is allowed. -/
theorem test_reject :
    after (.scReject 5) session (usage .opened) = true ∧
      after (.scReject 1) base (fun t => t.out.answers == []) = true := by decide +kernel

/-- The connect of a command is outstanding. -/
def connecting (c : Cmd) : State := { base with ctl := ⟨.opConn, c, .opening, .ok, false⟩ }

/-- V-SC-1 and V-SC-2. -/
theorem test_sc_open :
    after .scOpen (answering ⟨true, []⟩ (connecting .opening)) (fun t =>
        t.ctl.scState == .opened && t.ctl.trOpen && t.prod.pState == .acq && t.out.answers == [.ok]) = true ∧
      after .scOpen (answering ⟨false, []⟩ (connecting .opening)) (fun t => t.ctl.scState == .closed &&
        !t.ctl.trOpen && t.prod.pState == .idle && t.out.answers == [.errTransport]) = true := by decide +kernel
/-- V-SC-17, and the wait before it. -/
theorem test_sc_close :
    after .scClose (prodAt .doneFail true 0 0 (ctlAt .clJoin .closing base)) (fun t =>
        t.ctl.scState == .closed && !t.ctl.trOpen && t.out.answers == [.ok] && t.out.requests == [.close]) = true ∧
      after .scClose (prodAt .xfer true 0 0 (ctlAt .clJoin .closing base)) (fun t => t.ctl.scState == .clJoin) = true := by
  decide +kernel
/-- Program P7 (b): the connect, and the deadline. -/
theorem test_sc_snapshot :
    after .scSnapshot (answering ⟨true, []⟩ (connecting .snapshot)) (fun t =>
        goesOn none 0 t && t.ctl.snapPhase == .retr && t.tim.dlArmed && t.prod.pState == .acq) = true ∧
      after .scSnapshot { ctlAt .retr .snapshot retrieval with tim := ⟨true, true, false⟩ } (fun t =>
        t.ctl.scState == .clJoin && t.ctl.snapStatus == .errTimeout && t.prod.cancel && t.out.answers == []) = true := by
  decide +kernel
/-- V-SC-6: the deadline comes before the packet. -/
theorem test_sc_retrieve_frame :
    after .scRetrieveFrame (queueOf [⟨0, 0⟩] [(0, 1)] { retrieval with tim := ⟨true, true, false⟩ }) (fun t =>
      t.out.answers == [.errTimeout] && t.ctl.scState == .opened && queued t == [⟨0, 0⟩] && !t.prod.cancel &&
        !t.tim.dlArmed && t.stat.cause == .none) = true := by decide +kernel
/-- V-SC-7: the stopped pipeline comes before the packet. -/
theorem test_consume_stopped :
    after .scConsume (queueOf [⟨0, 0⟩] [(0, 1)] (prodAt .doneFail false 1 0 retrieval)) (fun t =>
      trapped .pipelineStopped t && queued t == [⟨0, 0⟩]) = true := by decide +kernel
/-- V-SC-9: the head names `BAD 60`. -/
theorem test_consume_packet :
    after .scConsume (queueOf [⟨1, 2⟩] [(1, 1)] (sliceAt 1 2 (pkt [0x00, 0x3C]) retrieval)) (fun t =>
      trapped .invalidPacketNumber t && queued t == [] && refGet t 1 == 0) = true := by decide +kernel
/-- V-SC-11, V-SC-12 and the entry. -/
theorem test_resync :
    after (.scResync .none) (prodAt .doneCancel true 1 4 (ctlAt .rsJoin .retrieveFrame (faAt (some 2) 1))) (fun t =>
        t.ctl.scState == .rsBackoff && !t.ctl.trOpen && t.prod.pState == .idle && t.fa.lastPn == none &&
          t.fa.segOrd == 0 && t.tim.boRunning) = true ∧
      after (.scResync .none) (prodAt .xfer true 1 4 (ctlAt .rsJoin .retrieveFrame base)) (fun t =>
        t.ctl.scState == .rsJoin) = true ∧
      after (.scResync .outOfOrderPacket) retrieval (trapped .outOfOrderPacket) = true := by decide +kernel
/-- V-SC-13, V-SC-14 and V-SC-15. -/
theorem test_resync_reconnects :
    after (.scResync .none) (ctlAt .rsBackoff .retrieveFrame base) (fun t => t.ctl.scState == .rsConn) = true ∧
      after (.scResync .none) (answering ⟨false, []⟩ (ctlAt .rsConn .retrieveFrame base)) (fun t =>
        t.ctl.scState == .closed && t.out.answers == [.errReopen] && !t.tim.dlArmed) = true ∧
      after (.scResync .none) (answering ⟨true, []⟩ (ctlAt .rsConn .retrieveFrame base)) (fun t =>
        t.ctl.scState == .retr && t.prod.pState == .acq) = true := by decide +kernel
/-- V-TM-1, V-TM-2 and V-TM-3. -/
theorem test_fire :
    after .tmFire base (fun t => !t.tim.dlFired && t.out.trace == []) = true ∧
      after .tmFire { base with tim := ⟨true, true, false⟩ } (fun t => t.out.trace == []) = true ∧
      after .tmFire { base with tim := ⟨true, false, true⟩ } (fun t => t.tim.dlFired && t.tim.boRunning) = true := by
  decide +kernel
/-- V-SC-13's timer. -/
theorem test_backoff_end :
    after .tmBackoffEnd { base with tim := ⟨true, false, true⟩ } (fun t => !t.tim.boRunning && t.tim.dlArmed) = true := by
  decide +kernel
/-- R44: the table's values after RESET. -/
theorem test_reset :
    after .reset { session with fa := ⟨some 3, 2, [], []⟩, regs.padMask := 0xFF, stat := ⟨.errorFlag, .errUsage⟩ } (fun t =>
      t.ctl.scState == .closed && t.prod.pState == .idle && t.fa.lastPn == none && t.regs.padMask == 0x0F &&
        t.regs.deadline == 10000 && t.regs.backoff == 300 && t.stat.cause == .none && t.stat.status == .ok &&
        !t.ctl.trOpen) = true := by decide +kernel

/-- R7, R36, R44: the reset of a build with another padding pattern, whatever the host had written. -/
theorem test_reset_build :
    let c : Params := { base.cfg with padMask := 0xFF, padPattern := 0xF0 }
    (State.resetOf c).regs.padMask = 0xFF ∧ (State.resetOf c).regs.padPattern = 0xF0 ∧
      State.reset.regs.padMask = 0x0F ∧
      after .reset { State.resetOf c with regs.padMask := 0 } (fun t =>
        t.regs.padMask == 0xFF && t.regs.padPattern == 0xF0) = true := by decide +kernel

/-- `step` answers a next state that passes a check. -/
def stepAfter (s : State) (q : State → Bool) : Bool :=
  match step s with
  | .next t => q t
  | .fault _ => false
  | .refused _ => false

/-- A line of the schedule is used up: a command's bytes, a step of the producer, a write of a register (R10, R36). -/
theorem test_step :
    stepAfter { base with env.sched := [.code ⟨.cmd3, [1]⟩] } (fun t => t.ctl.scState == .opConn && t.env.sched == []) = true ∧
      stepAfter { session with env.sched := [.producer] } (fun t => t.prod.pState == .xfer) = true ∧
      stepAfter { base with env.sched := [.write (.padMask 0xFF)] } (fun t => t.regs.padMask == 0xFF) = true ∧
      stepAfter { session with env.sched := [.write (.padMask 0xFF)] } (fun t => t.regs.padMask == 0x0F) = true := by
  decide +kernel
/-- R36: a register reads back what was written; R39: the last word of DEST, and no word after it. -/
theorem test_host_write :
    stepAfter { base with env.sched := [.write (.deadline 7)] } (fun t =>
        hostRead t .deadline == 7 && hostRead t .backoff == 300) = true ∧
      stepAfter { session with env.sched := [.write (.dest 19199 0xABCD)] } (fun t => readDest t 19199 == 0xABCD) = true ∧
      stepAfter { session with env.sched := [.write (.dest 19200 0xABCD)] } (fun _ => true) = false := by decide +kernel
/-- Row `FATAL` of the opcode table, placed and run as the first instruction after reset. -/
theorem test_fetch_word : stepAfter (State.reset.withFetchWord 16 0x8003) (fun t =>
    t.out.pv == some (.fatal .errorFlag)) = true := by decide +kernel

/-! ### Witnesses: states that have the invariants -/

/-- An ARENA of 328 zero bytes. -/
def zeroArena : List Host.Cell := cellsFrom 0 (List.replicate 328 0)

/-- A state with ARENA full of zeros, the queue empty or holding the packet at slice `(0, 0)`, and the rest of the reset
values. `small` is `P = 2`, `N = 1`, `QCAP = 1`. -/
def small (one : Bool) (p : Prod) (c : Ctl) (t : Tim) (sched : List Line) : State :=
  { State.reset with
    cfg := ⟨1, 0, 0, 0, true, 0x0F, 0x0F, ⟨1, 2, 3⟩⟩
    ring := ⟨zeroArena, 0, if one then [(0, 1)] else []⟩
    queue := if one then ⟨[(0, ⟨0, 0⟩)], 0, 0, 1⟩ else Queue.reset
    prod := p
    ctl := c
    tim := t
    env.sched := sched }

theorem small_written (one : Bool) (p : Prod) (c : Ctl) (t : Tim) (sched : List Line) (a : Nat) (h : a < 328) :
    written (small one p c t sched) .arena a = true := by
  have : cellGet zeroArena a = some 0 := by
    rw [zeroArena, Laws.cellGet_cellsFrom, List.getElem?_replicate]
    simp [h]
  simp [written, cellsOf, small, this]

theorem small_mem (one : Bool) (p : Prod) (c : Ctl) (t : Tim) (sched : List Line) : MemInv (small one p c t sched) := by
  refine ⟨Laws.cellsFrom_wf _ _, .nil, .nil, .nil, ?_, ?_, ?_, ?_, ?_, ?_, ?_, ?_⟩
  · cases one <;> simp [small, Queue.reset]
  · cases one <;> simp [small]
  · cases one <;> simp [small]
  · intro x hx
    have := Laws.cellsFrom_bounds _ _ _ hx
    rw [List.length_replicate] at this
    simp [small, spaceSize, chunkBytes, Params.n, Params.p, Config.pktBytes]
    omega
  all_goals cases one <;> simp [Below, small, State.reset, State.resetOf, Fa.reset, Queue.reset, Params.qcap]

theorem small_fa (one : Bool) (p : Prod) (c : Ctl) (t : Tim) (sched : List Line) : FaInv (small one p c t sched) := by
  refine ⟨?_, ?_, ?_, ?_, ?_⟩ <;> simp [small, State.reset, State.resetOf, Fa.reset, wholeRegions]

theorem small_inv (one : Bool) (p : Prod) (c : Ctl) (t : Tim) (sched : List Line)
    (hp : p.curChunk = 0 ∧ p.splitIdx ≤ 2 ∧ (one = true → p.pState = .xfer → False) ∧
      (one = true → p.pState = .split → 0 < p.splitIdx) ∧
      ((p.pState = .acq ∨ p.pState = .xfer ∨ p.pState = .split) → c.trOpen = true))
    (hc : CtlInv (small one p c t sched)) (hs : ∀ l ∈ sched, agentLine l = true) :
    Inv (small one p c t sched) := by
  obtain ⟨h1, h2, h3, h4, h5⟩ := hp
  have hq : queued (small one p c t sched) = if one then [⟨0, 0⟩] else [] := by
    cases one <;> simp [queued, small, Queue.reset, Params.qcap, qGet, cellGet]
  refine ⟨small_mem .., small_fa .., ?_, ?_, hc, hs⟩
  · refine ⟨?_, ?_, ?_, ?_, ?_, ?_, ?_⟩
    · cases one <;> simp [small, Queue.reset, Params.qcap]
    · cases one <;> simp [small, Queue.reset, Params.qcap]
    · cases one <;> simp [small, Queue.reset, Params.qcap]
    · intro x
      rw [hq]
      cases one
      · simp [refGet, small, cellGet]
      · by_cases hx : 0 = x <;> simp [refGet, small, cellGet, hx]
    · rw [hq]; cases one <;> simp [descOk, small, Params.n, Params.p]
    · rw [hq]
      cases one
      · simp
      · intro d hd i hi
        simp at hd
        subst hd
        apply small_written
        simp [sliceAddr, chunkAddr]
        omega
    · rw [hq]; cases one <;> simp
  · refine ⟨?_, ?_, ?_, ?_, ?_, ?_, ?_⟩
    · simp [small, Params.n]
    · simp [small, Params.n, h1]
    · simp [small, Params.p, h2]
    · intro hx
      cases one
      · simp [refGet, small, cellGet]
      · exact absurd (h3 rfl hx) id
    · intro hx d hd _
      rw [hq] at hd
      cases one
      · simp at hd
      · simp at hd
        subst hd
        exact h4 rfl hx
    · intro _ i hi
      apply small_written
      simp [small, chunkBytes, chunkAddr, Params.p, h1] at hi ⊢
      omega
    · intro hr
      apply h5
      simp [running, small] at hr
      tauto

/-- A retrieval in which the producer waits in `P_ACQ` for chunk 0, whose one packet is queued (R190). -/
def waitsForChunk (sched : List Line) : State :=
  small true ⟨false, .acq, 0, 2⟩ ⟨.retr, .retrieveFrame, .opening, .ok, true⟩ ⟨true, false, false⟩ sched
/-- A retrieval in which the producer waits in `P_SPLIT` for room in the full queue (R193). -/
def waitsForRoom (sched : List Line) : State :=
  small true ⟨false, .split, 0, 1⟩ ⟨.retr, .retrieveFrame, .opening, .ok, true⟩ ⟨true, false, false⟩ sched
/-- A CLOSE in progress with the producer cancelled and still running. -/
def cancelled (p : PState) (k : Nat) : State :=
  small false ⟨true, p, 0, 0⟩ ⟨.clJoin, .closing, .opening, .ok, true⟩ ⟨false, false, false⟩ (List.replicate k .producer)

theorem sched_ok (l : Line) (k : Nat) (h : agentLine l = true) : ∀ x ∈ List.replicate k l, agentLine x = true := by
  intro x hx
  rw [List.eq_of_mem_replicate hx]
  exact h

theorem waitsForChunk_inv (sched : List Line) (h : ∀ l ∈ sched, agentLine l = true) : Inv (waitsForChunk sched) := by
  refine small_inv _ _ _ _ _ ?_ ⟨?_, rfl, ?_⟩ h <;> simp [ctlOk, small, retrieving]

theorem waitsForRoom_inv (sched : List Line) (h : ∀ l ∈ sched, agentLine l = true) : Inv (waitsForRoom sched) := by
  refine small_inv _ _ _ _ _ ?_ ⟨?_, rfl, ?_⟩ h <;> simp [ctlOk, small, retrieving]

theorem cancelled_inv (p : PState) (k : Nat) (h : p = .acq ∨ p = .xfer ∨ p = .split) : Inv (cancelled p k) := by
  refine small_inv _ _ _ _ _ ?_ ⟨?_, rfl, ?_⟩ (sched_ok _ _ rfl) <;>
    rcases h with rfl | rfl | rfl <;> simp [ctlOk, small]

/-! ### Witnesses: the hypotheses of each obligation are met, clause by clause -/

theorem witness_DecodeOfEncodeIsTheInstruction :
    wellFormed 0x0F 0x0F (.data59 7 0xABCD pay1) = true ∧ wellFormed 0x00 0x0F (.pad 0xFFFF 0 pay1) = true ∧
      wellFormed 0xFF 0x0F (.badnum 7 0xFFF 0 pay1) = true := by decide +kernel
theorem witness_EncodeOfDecodeIsTheBytes :
    decode 0x0F 0x0F ⟨.hdr16, pkt [0x70, 0x14]⟩ = .ok (.data20 7 0 (pay [])) ∧ decode 0 0 ⟨.cmd3, [7]⟩ = .ok .reserved7 := by
  decide +kernel
theorem witness_StepRunsTheDecodedInstruction :
    (∃ s : State, s.env.sched = [.code ⟨.cmd3, [1]⟩] ∧
      decode s.regs.padMask s.regs.padPattern ⟨.cmd3, [1]⟩ = .ok .cmdOpen) ∧
    base.regs.padMask = Config.padMaskDefault ∧ base.regs.padPattern = Config.padPatternDefault ∧
      decodeTableWord 16 0x8003 = some (.fatal 0 3 0 (pay [])) :=
  ⟨⟨{ base with env.sched := [.code ⟨.cmd3, [1]⟩] }, rfl, by decide +kernel⟩, rfl, by decide +kernel⟩

/-- The state with this schedule. -/
def scheduled (l : Line) (s : State) : State := { s with env.sched := [l] }

theorem witness_SequencersPerformTheStepTheyStandAt :
    (∀ p c, (scheduled .producer (prodAt p c 0 0 base)).env.sched = [.producer] ∧
      (scheduled .producer (prodAt p c 0 0 base)).prod.pState = p ∧
      (scheduled .producer (prodAt p c 0 0 base)).prod.cancel = c) ∧
    ∀ st c, (scheduled .consumer (ctlAt st c base)).env.sched = [.consumer] ∧
      (scheduled .consumer (ctlAt st c base)).ctl.scState = st ∧ (scheduled .consumer (ctlAt st c base)).ctl.cmd = c :=
  ⟨fun _ _ => ⟨rfl, rfl, rfl⟩, fun _ _ => ⟨rfl, rfl, rfl⟩⟩
theorem witness_ValidatorReadsNoOtherBytes :
    pktHdr (pkt [0x70, 0x3B, 1, 2, 0, 0, 5]) &&& 0x8FFF = pktHdr (pkt [0x00, 0x3B]) &&& 0x8FFF ∧
      byteAt (pkt [0x70, 0x3B, 1, 2, 0, 0, 5]) 4 = byteAt (pkt [0x00, 0x3B]) 4 ∧
      byteAt (pkt [0x70, 0x3B, 1, 2, 0, 0, 5]) 5 = byteAt (pkt [0x00, 0x3B]) 5 := by decide +kernel
theorem witness_CrcNeverChangesTheResult :
    ∀ i, i ≠ 2 → i ≠ 3 → (pkt [0x00, 0x14, 0xAB, 0xCD])[i]? = (pkt [0x00, 0x14, 0x12, 0x34])[i]? := by
  intro i h2 h3
  match i with
  | 0 => rfl
  | 1 => rfl
  | 2 => exact absurd rfl h2
  | 3 => exact absurd rfl h3
  | _ + 4 => rfl
theorem witness_FaAcceptChecksTheSequence :
    59 < (60 : BitVec 6).toNat ∧ (0 : BitVec 6).toNat ≠ nextPn (faAt (some 0) 0).fa.lastPn ∧
      (1 : BitVec 6).toNat ≠ nextPn (faAt none 0).fa.lastPn ∧
      ((59 : BitVec 6).toNat ≤ 59 ∧ (59 : BitVec 6).toNat = nextPn (faAt (some 58) 4).fa.lastPn ∧ pay1.length = 160 ∧
        (faAt (some 58) 4).fa.segOrd.toNat ≤ 4) ∧
      (0 : BitVec 6).toNat = nextPn (faAt (some 59) 4).fa.lastPn := by decide +kernel
theorem witness_FaAcceptStoresAPlainPacket :
    pay1.length = 160 ∧ (58 : BitVec 6).toNat = nextPn (faAt (some 57) 0).fa.lastPn ∧
      (0 : BitVec 6).toNat = nextPn (faAt none 0).fa.lastPn ∧ (58 : BitVec 6) ≠ 20 ∧ (58 : BitVec 6) ≠ 59 := by
  decide +kernel
/-- The four clauses: ordinals 5, 4 after 2, 4 after 3, and 0. -/
theorem witness_FaAcceptReadsTheOrdinalAtTwenty :
    (faAt (some 19) 2).fa.lastPn = some 19 ∧ (pay [0x50]).length = 160 ∧ (byteAt (pay [0x50]) 0).toNat / 16 = 5 ∧
      (byteAt (pay [0x4F]) 0).toNat / 16 = 4 ∧ 4 ≠ (faAt (some 19) 2).fa.segOrd.toNat + 1 ∧
      4 = (faAt (some 19) 3).fa.segOrd.toNat + 1 ∧ (byteAt (pay [0x0F]) 0).toNat / 16 = 0 := by decide +kernel
theorem witness_FaAcceptCopiesTheSegmentAtFiftyNine :
    (∀ o, (faAt (some 58) o).fa.lastPn = some 58 ∧ (faAt (some 58) o).fa.segOrd = o) ∧ pay1.length = 160 ∧
      (4 : BitVec 3).toNat ≤ 4 ∧ (0 : BitVec 3).toNat = 0 ∧ 1 ≤ (1 : BitVec 3).toNat :=
  ⟨fun _ => ⟨rfl, rfl⟩, rfl, by decide, rfl, by decide⟩
/-- The clauses: `Incomplete`, a `SequenceError` and `Complete` in `S_RETR`, and any result outside it. -/
theorem witness_DataPacketIsAcceptedAndTreated :
    dataPacket (.data59 0 0 pay1) = some (59, pay1) ∧ dataPacket (.data 0 58 0 pay1) = some (58, pay1) ∧
      pay1.length = 160 ∧ (retrAt (some 58) 4).fa.segOrd.toNat ≤ 4 ∧ (retrAt (some 58) 4).ctl.scState = .retr ∧
      (retrAt (some 58) 4).ctl.cmd = .retrieveFrame ∧ (faAt (some 58) 4).ctl.scState ≠ .retr ∧
      fa 59 pay1 (retrAt (some 58) 4) .complete (some 59) 4 = true ∧
      fa 59 pay1 (retrAt (some 58) 3) .incomplete (some 59) 3 = true ∧
      fa 58 pay1 (retrAt (some 58) 4) (.sequenceError .outOfOrderPacket) (some 58) 4 = true := by decide +kernel
theorem witness_FaultTakesTheTrap :
    faultCause (.fatal 0 0xFFF 0 pay1) = some .errorFlag ∧ faultCause .faresOutOfOrderSegment = some .outOfOrderSegment ∧
      retrieval.ctl.scState = .retr := by decide +kernel
theorem witness_BlankAndIncompleteChangeNothing :
    (∃ t crc p, (Instr.blank 7 1 (pay []) : Instr) = .blank t crc p) ∧ (Instr.faresIncomplete : Instr) = .faresIncomplete :=
  ⟨⟨_, _, _, rfl⟩, rfl⟩
theorem witness_CompleteWritesTheImageAndEnds :
    retrieval.ctl.scState = .retr ∧ retrieval.ctl.cmd = .retrieveFrame ∧
      (ctlAt .retr .snapshot base).ctl.scState = .retr ∧ (ctlAt .retr .snapshot base).ctl.cmd = .snapshot := by
  decide +kernel
theorem witness_OutsideRetrievalNoFaultIsRaised :
    faultCause (.badnum 0 60 0 pay1) ≠ none ∧ base.ctl.scState ≠ .retr ∧ session.ctl.scState ≠ .retr := by decide +kernel
theorem witness_NextChunkHandsOutTheWriteIndex :
    session.prod.pState = .acq ∧ session.prod.cancel = false ∧ refGet session session.ring.wrIdx = 0 := by decide +kernel
theorem witness_TransferFillsTheChunk :
    let s := answering ⟨true, fill 656 [0xAB]⟩ (prodAt .xfer true 1 3 base)
    s.prod.pState = .xfer ∧ s.prod.curChunk < s.cfg.n ∧ (answerOf s).ok = true ∧
      (answerOf s).data.length = s.cfg.p * 164 := by decide +kernel
theorem witness_FailedTransferEndsTheProducer :
    let s := answering ⟨false, []⟩ (prodAt .xfer false 1 0 base)
    s.prod.pState = .xfer ∧ s.prod.curChunk < s.cfg.n ∧ (answerOf s).ok = false := by decide +kernel

/-- The producer before slice `(1, 3)`, the last of its chunk, whose first byte is `b`. -/
def splitting (c : Bool) (b : Byte) : State := sliceAt 1 3 [b] (prodAt .split c 1 3 base)

theorem splitting_kept (c : Bool) : SliceKept (splitting c 0x0E) := by unfold SliceKept; revert c; decide +kernel

theorem splitting_padding (c : Bool) : ¬ SliceKept (splitting c 0x4F) := by unfold SliceKept; revert c; decide +kernel

theorem witness_SplitEndsAndDropsPadding :
    ((prodAt .split true 1 4 base).prod.pState = .split ∧ (prodAt .split true 1 4 base).prod.splitIdx = base.cfg.p) ∧
      (splitting true 0x4F).prod.pState = .split ∧ (splitting true 0x4F).prod.splitIdx < base.cfg.p ∧
      (splitting true 0x4F).prod.curChunk < base.cfg.n ∧ ¬ SliceKept (splitting true 0x4F) :=
  ⟨by decide +kernel, by decide +kernel, by decide +kernel, by decide +kernel, splitting_padding true⟩
theorem witness_SplitEnqueuesTheSlice :
    ((splitting false 0x0E).prod.pState = .split ∧ (splitting false 0x0E).prod.splitIdx < base.cfg.p ∧
      (splitting false 0x0E).prod.curChunk < base.cfg.n ∧ (splitting false 0x0E).prod.cancel = false ∧
      (splitting false 0x0E).queue.count < base.cfg.qcap ∧ (splitting false 0x0E).queue.head < base.cfg.qcap ∧
      (splitting false 0x0E).queue.tail = 0 % base.cfg.qcap) ∧ SliceKept (splitting false 0x0E) :=
  ⟨by decide +kernel, splitting_kept false⟩
theorem witness_CancelEndsTheProducer :
    (prodAt .acq true 0 0 base).prod.cancel = true ∧ (prodAt .acq true 0 0 base).prod.pState = .acq ∧
      (splitting true 0x0E).prod.cancel = true ∧ (splitting true 0x0E).prod.pState = .split ∧
      (splitting true 0x0E).prod.splitIdx < base.cfg.p ∧ (splitting true 0x0E).prod.curChunk < base.cfg.n ∧
      SliceKept (splitting true 0x0E) :=
  ⟨rfl, rfl, rfl, rfl, by decide +kernel, by decide +kernel, splitting_kept true⟩
theorem witness_EnqueueAppendsTheDescriptor :
    let s := queueOf [⟨0, 1⟩] [(0, 1)] base
    (1 : BitVec 32).toNat < s.cfg.n ∧ (3 : BitVec 32).toNat < s.cfg.p ∧ s.queue.count < s.cfg.qcap ∧
      s.queue.head < s.cfg.qcap ∧ s.queue.tail = (s.queue.head + s.queue.count) % s.cfg.qcap := by decide +kernel
theorem witness_DequeueTakesTheOldest :
    let s := queueOf [⟨0, 1⟩, ⟨1, 3⟩] [(0, 1), (1, 1)] base
    0 < s.queue.count ∧ s.queue.head < s.cfg.qcap := by decide +kernel
theorem witness_CancelFlushAndStart :
    (prodAt .doneCancel true 0 0 base).prod.pState = .doneCancel ∧
      (prodAt .idle true 0 0 (ctlAt .rsConn .retrieveFrame base)).prod.pState = .idle ∧
      (prodAt .idle true 0 0 (ctlAt .rsConn .retrieveFrame base)).ctl.trOpen = true := by decide +kernel
theorem witness_CommandsAreAccepted :
    base.ctl.cmd = .none ∧ base.ctl.scState = .closed ∧ session.ctl.cmd = .none ∧ session.ctl.scState = .opened := by
  decide +kernel
theorem witness_ConnectOpensTheSession :
    ∀ b, (answerOf (answering ⟨b, []⟩ (connecting .opening))).ok = b ∧
      (answering ⟨b, []⟩ (connecting .opening)).ctl.scState = .opConn ∧
      (answering ⟨b, []⟩ (connecting .opening)).ctl.cmd = .opening ∧
      (answerOf (answering ⟨b, []⟩ (connecting .snapshot))).ok = b ∧
      (answering ⟨b, []⟩ (connecting .snapshot)).ctl.scState = .opConn ∧
      (answering ⟨b, []⟩ (connecting .snapshot)).ctl.cmd = .snapshot := by decide +kernel
theorem witness_ClosingStepReleasesTheTransport :
    let s := prodAt .doneFail true 0 0 (ctlAt .clJoin .closing base)
    let u := prodAt .doneCancel true 0 0 (ctlAt .clJoin .snapshot base)
    ClosingTurn .scClose s ∧ s.ctl.scState = .clJoin ∧ s.ctl.cmd = .closing ∧ s.prod.pState = .doneFail ∧
      ClosingTurn .scSnapshot u ∧ u.ctl.scState = .clJoin ∧ u.ctl.cmd = .snapshot ∧ u.prod.pState = .doneCancel :=
  ⟨.inl rfl, rfl, rfl, rfl, .inr ⟨rfl, rfl⟩, rfl, rfl, rfl⟩
theorem witness_UsageErrorsChangeOnlyStatus :
    commandOfCode 7 = .reserved7 ∧ commandOfCode 1 = .cmdOpen ∧ session.ctl.cmd = .none ∧
      ¬ (((1 : BitVec 3) = 1 ∧ session.ctl.scState = .closed) ∨ ((1 : BitVec 3) = 2 ∧ session.ctl.scState = .opened) ∨
        ((1 : BitVec 3) = 3 ∧ session.ctl.scState = .opened) ∨ ((1 : BitVec 3) = 4 ∧ session.ctl.scState = .closed)) := by
  decide +kernel
theorem witness_PortNotReadyKeepsCommandsOut : retrieval.ctl.cmd ≠ .none := by decide +kernel
theorem witness_FiredDeadlineEndsTheRetrieval :
    let s : State := { retrieval with tim := ⟨true, true, false⟩ }
    RetrievalTurn .scConsume s ∧ s.ctl.scState = .retr ∧ s.ctl.cmd = .retrieveFrame ∧ s.tim.dlFired = true :=
  ⟨.inl rfl, rfl, rfl, rfl⟩
theorem witness_FiredDeadlineEndsTheRetrieval_snapshot :
    let s : State := { ctlAt .retr .snapshot retrieval with tim := ⟨true, true, false⟩ }
    RetrievalTurn .scSnapshot s ∧ s.ctl.scState = .retr ∧ s.ctl.cmd = .snapshot ∧ s.tim.dlFired = true :=
  ⟨.inr (.inr ⟨rfl, rfl⟩), rfl, rfl, rfl⟩
theorem witness_StoppedPipelineTakesTheTrap :
    let s := prodAt .doneFail false 1 0 retrieval
    RetrievalTurn .scRetrieveFrame s ∧ s.ctl.scState = .retr ∧ s.tim.dlFired = false ∧ s.prod.pState = .doneFail :=
  ⟨.inr (.inl ⟨rfl, rfl⟩), rfl, rfl, rfl⟩
theorem witness_PacketTurnRunsThePacketsClass :
    let s := queueOf [⟨1, 3⟩] [(1, 1)] retrieval
    RetrievalTurn .scConsume s ∧ s.ctl.scState = .retr ∧ s.tim.dlFired = false ∧ s.prod.pState ≠ .doneFail ∧
      0 < s.queue.count ∧ s.queue.head < s.cfg.qcap ∧ s.fa.segOrd.toNat ≤ 4 ∧
      (qGet s s.queue.head).chunk < s.cfg.n ∧ (qGet s s.queue.head).slot < s.cfg.p :=
  ⟨.inl rfl, by decide +kernel⟩
theorem witness_ResyncEntryWritesTheCause : (Cause.pipelineStopped : Cause) ≠ .none ∧ retrieval.ctl.scState = .retr := by
  decide +kernel
theorem witness_ResyncStepsInOrder :
    let s := prodAt .doneCancel true 1 4 (ctlAt .rsJoin .retrieveFrame base)
    let u := answering ⟨false, []⟩ (ctlAt .rsConn .snapshot base)
    ResyncTurn (.scResync .none) s ∧ s.ctl.cmd = .retrieveFrame ∧ s.ctl.scState = .rsJoin ∧ s.prod.pState = .doneCancel ∧
      (ctlAt .rsBackoff .retrieveFrame base).tim.boRunning = false ∧ ResyncTurn .scSnapshot u ∧ u.ctl.cmd = .snapshot ∧
      u.ctl.scState = .rsConn ∧ (answerOf u).ok = false ∧
      (answerOf (answering ⟨true, []⟩ (ctlAt .rsConn .snapshot base))).ok = true :=
  ⟨.inl rfl, rfl, rfl, rfl, rfl, .inr (.inr ⟨rfl, rfl⟩), rfl, rfl, rfl, rfl⟩
theorem witness_TimerEventsSetTheirFlags :
    let s : State := { base with tim := ⟨true, false, true⟩ }
    s.tim.dlArmed = true ∧ s.tim.dlFired = false ∧ s.tim.boRunning = true := ⟨rfl, rfl, rfl⟩
/-- The producer before a slice that PF lets through, with FQ full. -/
def fullQueue : State := queueOf [⟨0, 0⟩, ⟨0, 1⟩] [(0, 2)] (splitting false 0x0E)

theorem witness_WaitingStepsChangeNothing :
    (refGet (waitsForChunk []) (waitsForChunk []).ring.wrIdx ≠ 0 ∧ (waitsForChunk []).prod.pState = .acq) ∧
      (fullQueue.prod.pState = .split ∧ fullQueue.prod.splitIdx < fullQueue.cfg.p ∧
        fullQueue.prod.curChunk < fullQueue.cfg.n ∧ fullQueue.prod.cancel = false ∧
        fullQueue.queue.count = fullQueue.cfg.qcap) ∧
      (retrieval.queue.count = 0 ∧ retrieval.tim.dlFired = false ∧ retrieval.prod.pState ≠ .doneFail ∧
        running retrieval = true) ∧
      (running (prodAt .xfer true 0 0 (ctlAt .rsJoin .retrieveFrame base)) = true ∧
        running (prodAt .xfer true 0 0 (ctlAt .clJoin .closing base)) = true) ∧
      base.tim.dlArmed = false ∧ base.tim.boRunning = false := by decide +kernel
theorem witness_WaitingStepsChangeNothing_slice : SliceKept fullQueue := by unfold SliceKept; decide +kernel

/-- `exec` answers a next state. -/
theorem exec_of_after {i : Instr} {s : State} {q : State → Bool} (h : after i s q = true) :
    ∃ t, exec i s = .next t ∧ q t = true := by
  unfold after at h
  split at h
  · next t ht => exact ⟨t, ht, h⟩
  · exact absurd h (by decide)
  · exact absurd h (by decide)

theorem step_of_stepAfter {s : State} {q : State → Bool} (h : stepAfter s q = true) :
    ∃ t, step s = .next t ∧ q t = true := by
  unfold stepAfter at h
  split at h
  · next t ht => exact ⟨t, ht, h⟩
  · exact absurd h (by decide)
  · exact absurd h (by decide)

/-- A state with the invariants whose step takes a packet from the queue. -/
theorem witness_EveryStepKeepsTheInvariants :
    ∃ s t, Inv s ∧ step s = .next t ∧ (t.fa.lastPn == none && t.queue.count == 0) = true := by
  obtain ⟨t, ht, hq⟩ := step_of_stepAfter (s := waitsForRoom [.consumer])
    (q := fun t => t.fa.lastPn == none && t.queue.count == 0) (by decide +kernel)
  exact ⟨_, t, waitsForRoom_inv _ (by simp [agentLine]), ht, hq⟩
/-- Both ends are met: a step, and a write of the host outside DEST. -/
theorem witness_AgentStepsNeverStop :
    Inv (waitsForChunk [.consumer]) ∧ Inv (waitsForChunk [.write (.dest 19200 1)]) ∧
      (nextLine (waitsForChunk [.write (.dest 19200 1)])).1 = .write (.dest 19200 1) :=
  ⟨waitsForChunk_inv _ (by simp [agentLine]), waitsForChunk_inv _ (by simp [agentLine]), rfl⟩
theorem witness_StoresAndAssemblerKeepTheirForm :
    ∃ s t, MemInv s ∧ FaInv s ∧ step s = .next t ∧ (t.fa.lastPn == some 0) = true := by
  obtain ⟨t, ht, hq⟩ := step_of_stepAfter
    (s := small false ⟨false, .idle, 0, 0⟩ Ctl.reset Tim.reset [.code ⟨.op5, 0x03 :: 0x00 :: pay1⟩])
    (q := fun t => t.fa.lastPn == some 0) (by decide +kernel)
  exact ⟨_, t, small_mem .., small_fa .., ht, hq⟩
/-- FA before the last packet of a frame, every byte of the three regions and of the slots before it written. -/
def lastPacket : State :=
  { base with fa := ⟨some 58, 4, cellsFrom 0 (List.replicate 9440 0), cellsFrom 0 (List.replicate 28800 0)⟩ }

theorem replicate_written (n a : Nat) (h : a < n) :
    (cellGet (cellsFrom 0 (List.replicate n (0 : Byte))) a).isSome = true := by
  rw [Laws.cellGet_cellsFrom, List.getElem?_replicate]
  simp [h]

/-- Two states with a reset position whose buffers differ, and the packets of a frame, which complete it (R174). -/
theorem witness_CompleteLeavesNoStaleByte_twoStates :
    let dirty : State := { base with fa := ⟨none, 0, [(0, 7)], [(38399, 7)]⟩ }
    let ps := framePackets fun k => pay [BitVec.ofNat 8 (16 * (k / 60 + 1))]
    base.fa.lastPn = none ∧ base.fa.segOrd = 0 ∧ dirty.fa.lastPn = none ∧ dirty.fa.segOrd = 0 ∧
      (∀ p ∈ ps, p.2.length = 160) ∧ readByte dirty .framebuf 38399 = 7 ∧
        (acceptAll ps base).any (fun x => x.2.contains .complete) = true := by
  decide +kernel
theorem witness_CompleteLeavesNoStaleByte :
    base.fa = Fa.reset ∧ FaInv lastPacket ∧ pay1.length = 160 ∧
      ∃ t, exec (.faAccept 59 pay1) lastPacket = .next t ∧ t.out.fa = some .complete := by
  refine ⟨rfl, ⟨by decide, ?_, ?_, ?_, ?_⟩, rfl, ?_⟩
  · intro l hl
    cases hl
    decide
  · intro h
    cases h
  · intro l hl a ha
    cases hl
    exact replicate_written 9440 a ha
  · intro a ha
    exact replicate_written 28800 a (lt_of_lt_of_eq ha (by decide +kernel))
  · obtain ⟨t, ht, hq⟩ := exec_of_after (i := .faAccept 59 pay1) (s := lastPacket)
      (q := fun t => t.out.fa == some .complete) (by decide +kernel)
    exact ⟨t, ht, by simpa using hq⟩
theorem witness_WholeFrameIsReassembled :
    let pays := fun k => pay [BitVec.ofNat 8 (16 * (k / 60 + 1))]
    base.fa.lastPn = none ∧ base.fa.segOrd = 0 ∧ (∀ k, k < 240 → (pays k).length = 160) ∧
      ∀ o, o < 4 → (byteAt (pays (60 * o + 20)) 0).toNat / 16 = o + 1 :=
  ⟨rfl, rfl, fun _ _ => rfl, by decide +kernel⟩
theorem witness_TraceInfluencesNothing : ∃ t, exec .spCancel session = .next t ∧ t.out.trace = [.spCancel] := ⟨_, rfl, rfl⟩
/-- A write in `S_CLOSED` and one in `S_OPEN`, and a RESET that puts the build's values. -/
theorem witness_ConfigurationChangesOnlyWhenClosed :
    ((nextLine (scheduled (.write (.padMask 0xFF)) base)).1 = .write (.padMask 0xFF) ∧ base.ctl.scState = .closed ∧
      (nextLine (scheduled (.write (.backoff 0)) session)).1 = .write (.backoff 0) ∧ session.ctl.scState ≠ .closed ∧
      configWrite (.padMask 0xFF) = some (.padMask, .padMask, 255) ∧
      configWrite (.padPattern 0) = some (.padPattern, .padPattern, 0) ∧
      configWrite (.deadline 1) = some (.deadline, .deadline, 1) ∧
      configWrite (.backoff 0) = some (.backoff, .backoff, 0)) ∧
    (∃ t, step (scheduled (.write (.padMask 0xFF)) base) = .next t ∧ t.regs ≠ base.regs) ∧
      ∃ t, step (scheduled (.code (encode .reset)) { session with regs.padMask := 0xFF }) = .next t ∧
        t.regs = Regs.reset session.cfg :=
  ⟨by decide +kernel, ⟨_, rfl, by decide +kernel⟩, ⟨_, rfl, rfl⟩⟩
/-- A retrieval and a snapshot that `Complete` ends, in states whose command and session agree. -/
theorem witness_DestIsWrittenOnlyAsAnImage :
    (ctlOk retrieval ∧ ∃ t, exec .faresComplete retrieval = .next t ∧ t.out.answers = [.ok]) ∧
      ctlOk (ctlAt .retr .snapshot retrieval) ∧
        ∃ t, exec .faresComplete (ctlAt .retr .snapshot retrieval) = .next t ∧ t.ctl.snapPhase = .closing :=
  ⟨⟨by simp [ctlOk, retrieval, ctlAt, prodAt, retrieving], _, rfl, rfl⟩,
    by simp [ctlOk, retrieval, ctlAt, prodAt, retrieving], _, rfl, rfl⟩
/-- The last word of DEST and the first address outside it. -/
theorem witness_HostWritesItsOwnDest :
    (nextLine (scheduled (.write (.dest 19199 1)) session)).1 = .write (.dest 19199 1) ∧
      (nextLine (scheduled (.write (.dest 19200 1)) session)).1 = .write (.dest 19200 1) ∧ 19199 < 19200 := by
  decide +kernel
theorem witness_CauseIsWrittenOnlyByTheTrap :
    ∃ t, exec .faresOutOfOrderPacket retrieval = .next t ∧ t.stat.cause = .outOfOrderPacket ∧
      (Instr.faresOutOfOrderPacket : Instr) ≠ .reset := ⟨_, rfl, rfl, by decide⟩
theorem witness_AgentsKeepToTheirRights :
    (∃ t, exec .rbNextChunk session = .next t) ∧ (∃ t, exec .tmFire base = .next t) ∧
      ∃ t, exec .tmBackoffEnd base = .next t := ⟨⟨_, rfl⟩, ⟨_, rfl⟩, ⟨_, rfl⟩⟩
theorem witness_SequencersTakeOnlyTheirTransitions :
    ∃ t, exec .rbNextChunk session = .next t ∧ t.prod.pState = .xfer ∧ (Instr.rbNextChunk : Instr) ≠ .reset ∧ ctlOk session :=
  ⟨_, rfl, rfl, by decide, by simp [ctlOk, session, ctlAt, prodAt]⟩
/-- The closing step asks the transport to close. -/
theorem witness_TransportIsUsedAsItsContractSays :
    ∃ s t, Inv s ∧ step s = .next t ∧ (t.out.requests == [.close]) = true := by
  have hi : Inv (small true ⟨true, .doneCancel, 0, 0⟩ ⟨.clJoin, .closing, .opening, .ok, true⟩ ⟨false, false, false⟩
      [.consumer]) := by
    refine small_inv _ _ _ _ _ ?_ ⟨?_, rfl, ?_⟩ ?_ <;> simp [ctlOk, small, agentLine]
  obtain ⟨t, ht, hq⟩ := step_of_stepAfter (q := fun t => t.out.requests == [.close])
    (s := small true ⟨true, .doneCancel, 0, 0⟩ ⟨.clJoin, .closing, .opening, .ok, true⟩ ⟨false, false, false⟩
      [.consumer]) (by decide +kernel)
  exact ⟨_, t, hi, ht, hq⟩
/-- A packet stays queued over a step. -/
theorem witness_QueueIsFifoAndPacketsStayWhole :
    ∃ s t d, Inv s ∧ step s = .next t ∧ d ∈ queued s ∧ d ∈ queued t := by
  obtain ⟨t, ht, hq⟩ := step_of_stepAfter (s := waitsForChunk [.code (encode .tmFire)])
    (q := fun t => queued t == [⟨0, 0⟩]) (by decide +kernel)
  have hs : queued (waitsForChunk [.code (encode .tmFire)]) = [⟨0, 0⟩] := by decide +kernel
  have ht' : queued t = [⟨0, 0⟩] := by simpa using hq
  exact ⟨_, t, ⟨0, 0⟩, waitsForChunk_inv _ (by decide +kernel), ht, by rw [hs]; simp, by rw [ht']; simp⟩
/-- Both waits, in a retrieval with the deadline not fired. -/
theorem witness_WaitingProducerMeetsAQueuedPacket :
    (Inv (waitsForChunk []) ∧ Inv (waitsForRoom [])) ∧
      (waitsForChunk []).prod.cancel = false ∧ (waitsForChunk []).prod.pState = .acq ∧
      refGet (waitsForChunk []) (waitsForChunk []).ring.wrIdx ≠ 0 ∧ (waitsForChunk []).ctl.scState = .retr ∧
      (waitsForChunk []).tim.dlFired = false ∧ (waitsForRoom []).prod.cancel = false ∧
      (waitsForRoom []).prod.pState = .split ∧ (waitsForRoom []).prod.splitIdx < (waitsForRoom []).cfg.p ∧
      (waitsForRoom []).queue.count = (waitsForRoom []).cfg.qcap :=
  ⟨⟨waitsForChunk_inv _ (by simp), waitsForRoom_inv _ (by simp)⟩, by decide +kernel⟩
/-- From `P_ACQ`, `P_XFER` and `P_SPLIT`; `P` is 2. -/
theorem witness_CancelledProducerTerminatesInTime :
    (Inv (cancelled .acq 4) ∧ Inv (cancelled .xfer 5) ∧ Inv (cancelled .split 4)) ∧
      (cancelled .xfer 5).prod.cancel = true ∧ running (cancelled .xfer 5) = true ∧ running (cancelled .acq 4) = true ∧
      running (cancelled .split 4) = true ∧ (cancelled .xfer 5).cfg.p = 2 ∧
      (cancelled .xfer 5).env.sched = List.replicate 5 .producer ++ [] ∧
      (cancelled .acq 4).env.sched = List.replicate 4 .producer ++ [] ∧
      (cancelled .split 4).env.sched = List.replicate 4 .producer ++ [] :=
  ⟨⟨cancelled_inv _ _ (.inl rfl), cancelled_inv _ _ (.inr (.inl rfl)), cancelled_inv _ _ (.inr (.inr rfl))⟩, rfl, rfl, rfl,
    rfl, rfl, rfl, rfl, rfl⟩

end Sys2Proof.Tests
end

section
/-!
PROOF. O10: the CRC field of a packet is read by no meaning (R102). A packet takes effect through PV's result and its
payload only, and both of these, like the byte the padding test of row 1 reads, lie outside bytes 2 and 3.
-/

namespace Sys2Proof.Laws

open Sys2Proof.Machine

/-- The two packets agree in every byte but those of the CRC field (R102). -/
def EqButCrc (p q : List Byte) : Prop := ∀ i, i ≠ 2 → i ≠ 3 → p[i]? = q[i]?

theorem EqButCrc.byteAt_eq {p q : List Byte} (h : EqButCrc p q) {i : Nat} (h2 : i ≠ 2) (h3 : i ≠ 3) :
    byteAt p i = byteAt q i := by
  simp [byteAt, List.getD_eq_getElem?_getD, h i h2 h3]

theorem EqButCrc.pktHdr_eq {p q : List Byte} (h : EqButCrc p q) : pktHdr p = pktHdr q := by
  rw [pktHdr, pktHdr, h.byteAt_eq (i := 0) (by decide) (by decide), h.byteAt_eq (i := 1) (by decide) (by decide)]

theorem EqButCrc.pktPay_eq {p q : List Byte} (h : EqButCrc p q) : pktPay p = pktPay q := by
  refine List.ext_getElem? fun i => ?_
  rw [pktPay, pktPay, List.getElem?_drop, List.getElem?_drop]
  exact h (4 + i) (by omega) (by omega)

/-- PV reads the header and the first two bytes of the payload (R141). -/
theorem EqButCrc.validate_eq {p q : List Byte} (h : EqButCrc p q) : validate p = validate q := by
  simp only [validate, h.pktHdr_eq, h.byteAt_eq (i := 4) (by decide) (by decide),
    h.byteAt_eq (i := 5) (by decide) (by decide)]

theorem EqButCrc.consumePacket_eq {p q : List Byte} (h : EqButCrc p q) (s : State) :
    consumePacket p s = consumePacket q s := by
  simp only [consumePacket, h.validate_eq, h.pktPay_eq]

/-- A dropped packet's effect is the same whatever its fields are (R105). -/
theorem exec_pad_congr (hdr hdr' crc crc' : BitVec 16) (pay pay' : List Byte) (s : State) :
    exec (.pad hdr crc pay) s = exec (.pad hdr' crc' pay') s := by
  rfl

/-- A packet is either dropped by row 1 of the decode table or handed to PV and FA (R109). -/
theorem exec_decodePacket (mask pattern : Byte) (pkt : List Byte) (s : State) :
    exec (decodePacket mask pattern pkt) s =
      if isPad mask pattern (byteAt pkt 0) then exec (.pad (pktHdr pkt) (pktCrc pkt) (pktPay pkt)) s
      else outcome (consumePacket pkt s) := by
  unfold decodePacket
  split
  · rfl
  · exact exec_decodePv pkt s

theorem EqButCrc.exec_decodePacket_eq {p q : List Byte} (h : EqButCrc p q) (mask pattern : Byte) (s : State) :
    exec (decodePacket mask pattern p) s = exec (decodePacket mask pattern q) s := by
  rw [exec_decodePacket, exec_decodePacket, h.byteAt_eq (i := 0) (by decide) (by decide), h.consumePacket_eq s,
    exec_pad_congr (pktHdr p) (pktHdr q) (pktCrc p) (pktCrc q) (pktPay p) (pktPay q) s]

theorem exec_pvValidate (pkt : List Byte) (s : State) : exec (.pvValidate pkt) s = .next (putPv (validate pkt) s) := by
  rfl

/-- Settles O10: the packet's class performs PV and FA on the header and payload, which the CRC field is no part of. -/
theorem crcNeverChangesTheResult : Obligations.CrcNeverChangesTheResult := by
  unfold Obligations.CrcNeverChangesTheResult
  intro mask pattern p q s hpq
  have h : EqButCrc p q := hpq
  refine ⟨h.exec_decodePacket_eq mask pattern s, ?_⟩
  rw [exec_pvValidate, exec_pvValidate, h.validate_eq]

end Sys2Proof.Laws
end

section
/-!
PROOF. O8, O9: PV's classification (R141 to R148). PV reads of the header bit 15 and bits 11:0 only, both given here by
their masks; `PvClass` says once what it answers, and the two statements are read off from it.
-/

namespace Sys2Proof.Laws

open Sys2Proof.Machine Sys2Proof.Safety

/-! ### The header fields PV reads, by their masks (R101, R104) -/

theorem getLsbD_fifteen_iff (h : BitVec 16) : h.getLsbD 15 = true ↔ h &&& 0x8000 ≠ 0 := by
  have hmask : (0x8000 : BitVec 16) = BitVec.twoPow 16 15 := by decide
  rw [hmask, BitVec.and_twoPow]
  cases h.getLsbD 15 <;> decide

theorem hdrPn_toNat (h : BitVec 16) : (hdrPn h).toNat = (h &&& 0x0FFF).toNat := by
  have hmask : (0x0FFF : BitVec 16).toNat = 2 ^ 12 - 1 := by decide
  rw [BitVec.toNat_and, hmask, Nat.and_two_pow_sub_one_eq_mod, hdrPn, BitVec.extractLsb'_toNat, Nat.shiftRight_zero]

theorem hdrPn_eq_zero_iff (h : BitVec 16) : hdrPn h = 0 ↔ (h &&& 0x0FFF).toNat = 0 := by
  rw [← hdrPn_toNat]
  exact toNat_eq_iff (hdrPn h) 0 (by decide)

/-- A field of bit 15 and bits 11:0 is the same in two headers that agree there (R110). -/
theorem and_eq_and_of_mask {h k m : BitVec 16} (e : h &&& 0x8FFF = k &&& 0x8FFF) (hm : 0x8FFF &&& m = m) :
    h &&& m = k &&& m := by
  rw [← hm, ← BitVec.and_assoc, e, BitVec.and_assoc]

/-! ### What PV answers -/

/-- The fatal-error flag of the header is clear (R142). -/
def FlagClear (pkt : List Byte) : Prop := pktHdr pkt &&& 0x8000 = 0

/-- The packet number as PV tests it: all twelve bits (R143). -/
def headerNumber (pkt : List Byte) : Nat := (pktHdr pkt &&& 0x0FFF).toNat

/-- The packet is numbered 0 and its payload begins with two zero bytes (R144). -/
def Blank (pkt : List Byte) : Prop := headerNumber pkt = 0 ∧ byteAt pkt 4 = 0 ∧ byteAt pkt 5 = 0

theorem Blank.headerNumber_le {pkt : List Byte} (hb : Blank pkt) : headerNumber pkt ≤ 59 := by
  obtain ⟨hn, -, -⟩ := hb
  omega

/-- The results of PV, each with its condition on the packet (R142 to R145). -/
inductive PvClass (pkt : List Byte) : PvRes → Prop
  | errorFlag (hF : ¬ FlagClear pkt) : PvClass pkt (.fatal .errorFlag)
  | badNumber (hF : FlagClear pkt) (hn : 59 < headerNumber pkt) : PvClass pkt (.fatal .invalidPacketNumber)
  | discard (hF : FlagClear pkt) (hb : Blank pkt) : PvClass pkt .discard
  | number (n : BitVec 6) (hF : FlagClear pkt) (hv : n.toNat = headerNumber pkt) (hn : headerNumber pkt ≤ 59)
      (hb : ¬ Blank pkt) : PvClass pkt (.sequenceNumber n)

/-- PV's tests, in the order of R141. -/
theorem validate_class (pkt : List Byte) : PvClass pkt (validate pkt) := by
  have hflag : (pktHdr pkt).getLsbD 15 = true ↔ ¬ FlagClear pkt := getLsbD_fifteen_iff (pktHdr pkt)
  have hpn : (hdrPn (pktHdr pkt)).toNat = headerNumber pkt := hdrPn_toNat (pktHdr pkt)
  have hblank : (hdrPn (pktHdr pkt) = 0 ∧ byteAt pkt 4 = 0 ∧ byteAt pkt 5 = 0) ↔ Blank pkt := by
    rw [hdrPn_eq_zero_iff, Blank, headerNumber]
  unfold validate
  simp only
  split
  case isTrue hF => exact .errorFlag (hflag.mp hF)
  case isFalse hF =>
    have hF : FlagClear pkt := not_not.mp (mt hflag.mpr hF)
    rw [hpn]
    split
    case isTrue hn => exact .badNumber hF hn
    case isFalse hn =>
      have hn : headerNumber pkt ≤ 59 := not_lt.mp hn
      split
      case isTrue hb => exact .discard hF (hblank.mp hb)
      case isFalse hb =>
        have hv : ((hdrPn (pktHdr pkt)).setWidth 6).toNat = headerNumber pkt := by
          rw [BitVec.toNat_setWidth, hpn, Nat.mod_eq_of_lt (by omega)]
        exact .number _ hF hv hn (mt hblank.mpr hb)

section
variable {pkt : List Byte} {r : PvRes}

theorem PvClass.eq_errorFlag_iff (h : PvClass pkt r) : r = .fatal .errorFlag ↔ ¬ FlagClear pkt := by
  cases h with
  | errorFlag hF => simp [hF]
  | badNumber hF | discard hF | number _ hF => simp [hF]

theorem PvClass.eq_invalidPacketNumber_iff (h : PvClass pkt r) :
    r = .fatal .invalidPacketNumber ↔ FlagClear pkt ∧ 59 < headerNumber pkt := by
  cases h with
  | errorFlag hF => simp [hF]
  | badNumber hF hn => simp [hF, hn]
  | discard _ hb => simp [hb.headerNumber_le]
  | number _ _ _ hn => simp [hn]

theorem PvClass.eq_discard_iff (h : PvClass pkt r) : r = .discard ↔ FlagClear pkt ∧ Blank pkt := by
  cases h with
  | errorFlag hF => simp [hF]
  | badNumber _ hn => simp [mt Blank.headerNumber_le hn.not_ge]
  | discard hF hb => simp [hF, hb]
  | number _ _ _ _ hb => simp [hb]

theorem PvClass.eq_sequenceNumber_iff (h : PvClass pkt r) (m : BitVec 6) :
    r = .sequenceNumber m ↔ FlagClear pkt ∧ m.toNat = headerNumber pkt ∧ headerNumber pkt ≤ 59 ∧ ¬ Blank pkt := by
  cases h with
  | errorFlag hF => simp [hF]
  | badNumber _ hn => simp [hn]
  | discard _ hb => simp [hb]
  | number n hF hv hn hb => simp [hF, hn, hb, hv, ← BitVec.toNat_inj, eq_comm]

end

/-! ### PV on its own -/

theorem putPv_traced (r : PvRes) (s : State) : Traced s (putPv r s) [.validate r] := by
  rw [Traced, putPv_out]

/-- PV's result and its trace record are all that PV.VALIDATE writes (R141). -/
theorem putPv_allBut (r : PvRes) (s : State) : AllBut [.outPv, .trace] s (putPv r s) := by
  intro p hp
  cases p
  case outPv | trace => simp at hp
  case segbuf | framebuf | arena | refcnt | dest => exact fun _ => rfl
  case queue => exact ⟨rfl, rfl, rfl, fun _ => rfl⟩
  all_goals rfl

/-- Settles O8: the result is in one of the four classes, and their conditions exclude each other. -/
theorem validatorClassifiesEveryPacket : Obligations.ValidatorClassifiesEveryPacket := by
  unfold Obligations.ValidatorClassifiesEveryPacket
  intro pkt s
  have h := validate_class pkt
  exact ⟨putPv (validate pkt) s, exec_pvValidate pkt s, validate pkt, rfl, putPv_traced _ s, putPv_allBut _ s,
    h.eq_errorFlag_iff, h.eq_invalidPacketNumber_iff, h.eq_discard_iff, h.eq_sequenceNumber_iff⟩

/-! ### What PV does not read -/

/-- PV reads bit 15 and bits 11:0 of the header and bytes 4 and 5 (R110, R148). -/
theorem validate_congr {p q : List Byte} (hh : pktHdr p &&& 0x8FFF = pktHdr q &&& 0x8FFF)
    (h4 : byteAt p 4 = byteAt q 4) (h5 : byteAt p 5 = byteAt q 5) : validate p = validate q := by
  have hflag : (pktHdr p).getLsbD 15 = (pktHdr q).getLsbD 15 := by
    rw [Bool.eq_iff_iff, getLsbD_fifteen_iff, getLsbD_fifteen_iff, and_eq_and_of_mask hh (by decide)]
  have hpn : hdrPn (pktHdr p) = hdrPn (pktHdr q) := by
    rw [← BitVec.toNat_inj, hdrPn_toNat, hdrPn_toNat, and_eq_and_of_mask hh (by decide)]
  simp only [validate, hflag, hpn, h4, h5]

/-- Settles O9: PV.VALIDATE leaves only PV's result behind, which reads the two header fields and bytes 4 and 5. -/
theorem validatorReadsNoOtherBytes : Obligations.ValidatorReadsNoOtherBytes := by
  unfold Obligations.ValidatorReadsNoOtherBytes
  intro p q s hh h4 h5
  rw [exec_pvValidate, exec_pvValidate, validate_congr hh h4 h5]

end Sys2Proof.Laws
end

section
/-!
PROOF. O11, O15: FA's sequence check and its reset (R161, R167, R168, R171). What a step leaves alone is shown piece by
piece from two rules: a state is the same as itself, and a trace record changes nothing but the trace.
-/

namespace Sys2Proof.Laws

open Sys2Proof.Machine Sys2Proof.Safety

/-! ### Frames -/

@[simp] theorem same_refl (p : Part) (s : State) : same p s s := by
  cases p
  case segbuf | framebuf | arena | refcnt | dest => exact fun _ => rfl
  case queue => exact ⟨rfl, rfl, rfl, fun _ => rfl⟩
  all_goals rfl

/-- A trace record is seen in the trace only (R285). -/
theorem same_emit_iff {p : Part} (hp : p ≠ .trace) (e : Event) (s t : State) : same p s (emit e t) ↔ same p s t := by
  cases p
  case trace => exact absurd rfl hp
  all_goals exact Iff.rfl

theorem allBut_trace_emit (e : Event) (s : State) : AllBut [.trace] s (emit e s) := by
  intro p hp
  have hne : p ≠ .trace := fun h => hp (h ▸ List.mem_singleton_self _)
  exact (same_emit_iff hne e s s).mpr (same_refl p s)

/-- A traced step writes what the step writes, and the trace. -/
theorem AllBut.emit {ps : List Part} {s t : State} (h : AllBut ps s t) (ht : .trace ∈ ps) (e : Event) :
    AllBut ps s (Machine.emit e t) := by
  intro p hp
  have hne : p ≠ .trace := fun h => hp (h ▸ ht)
  exact (same_emit_iff hne e s t).mpr (h p hp)

/-! ### FA.RESET -/

theorem exec_faReset (s : State) : exec .faReset s = .next (faResetOp s) := by
  rfl

theorem faResetOp_traced (s : State) : Traced s (faResetOp s) [.faReset] := by
  rw [Traced, faResetOp_out]

/-- SEGBUF and FRAMEBUF keep their bytes over a reset of the position (R168). -/
theorem faResetOp_allBut (s : State) : AllBut [.lastPn, .segOrd, .trace] s (faResetOp s) := by
  refine AllBut.emit (fun p hp => ?_) (by decide) .faReset
  have h := same_refl p s
  cases p
  case lastPn | segOrd => simp at hp
  all_goals exact h

/-- FA.RESET of a reset position is its trace record alone (R171). -/
theorem faResetOp_faResetOp (s : State) : faResetOp (faResetOp s) = emit .faReset (faResetOp s) := by
  rfl

/-- Settles O15: the second FA.RESET writes the values that stand there, so that its record is all it adds. -/
theorem faResetClearsThePositionIdempotently : Obligations.FaResetClearsThePositionIdempotently := by
  unfold Obligations.FaResetClearsThePositionIdempotently
  intro s
  have htwice : AllBut [.trace] (faResetOp s) (faResetOp (faResetOp s)) := by
    rw [faResetOp_faResetOp]
    exact allBut_trace_emit .faReset (faResetOp s)
  exact ⟨faResetOp s, exec_faReset s, by rw [faResetOp_fa], by rw [faResetOp_fa], faResetOp_traced s,
    faResetOp_allBut s, faResetOp (faResetOp s), exec_faReset _, htwice⟩

/-! ### FA.ACCEPT -/

/-- FA's result stands on its output, and is traced (R160). -/
def putFa (r : FaRes) (s : State) : State := emit (.accept r) { s with out.fa := some r }

@[simp] theorem putFa_outFa (r : FaRes) (s : State) : (putFa r s).out.fa = some r := rfl

theorem putFa_traced (r : FaRes) (s : State) : Traced s (putFa r s) [.accept r] := by
  rfl

theorem putFa_allBut (r : FaRes) (s : State) : AllBut [.outFa, .trace] s (putFa r s) := by
  refine AllBut.emit (fun p hp => ?_) (by decide) (.accept r)
  have h := same_refl p s
  cases p
  case outFa => simp at hp
  all_goals exact h

section
variable {pn : BitVec 6} {pay : List Byte} {s u : State} {r : FaRes}

/-- FA.ACCEPT is its core, followed by its result. -/
theorem exec_faAccept_of_core (h : acceptCore pn pay s = .ok (r, u)) :
    exec (.faAccept pn pay) s = .next (putFa r u) := by
  have hop : faAcceptOp pn pay s = .ok (r, putFa r u) := faAcceptOp_ok.mpr ⟨u, h, rfl⟩
  change execFaAccept pn pay s = _
  rw [execFaAccept, hop]

/-- A failed sequence check leaves FA as it stands (R161, R167). -/
theorem acceptCore_of_outOfSequence (h : ¬ (pn.toNat ≤ 59 ∧ pn.toNat = nextPn s.fa.lastPn)) :
    acceptCore pn pay s = .ok (.sequenceError .outOfOrderPacket, s) :=
  if_neg (mt (seqOk_iff _ _).mp h)

/-- Past the sequence check no part of FA.ACCEPT answers OUT_OF_ORDER_PACKET (R160 to R164). -/
theorem AcceptStep.ne_outOfOrderPacket (h : AcceptStep pn pay s (.ok (r, u)))
    (hseq : pn.toNat ≤ 59 ∧ pn.toNat = nextPn s.fa.lastPn) : r ≠ .sequenceError .outOfOrderPacket := by
  cases h with
  | outOfOrder hout => exact absurd hseq hout
  | copied => split <;> simp
  | badOrdinal | otherSegment | adopted | plain => simp

end

/-- Settles O11: the check is `seqOk`, which is `next` of R161; only its failure answers OUT_OF_ORDER_PACKET. -/
theorem faAcceptChecksTheSequence : Obligations.FaAcceptChecksTheSequence := by
  unfold Obligations.FaAcceptChecksTheSequence
  intro s pn pay
  refine ⟨fun hout => ?_, fun h59 hnext hlen hseg => ?_⟩
  · have hcore := acceptCore_of_outOfSequence (pn := pn) (pay := pay) (s := s) (by omega)
    exact ⟨_, exec_faAccept_of_core hcore, putFa_outFa _ s, putFa_traced _ s, by decide, putFa_allBut _ s⟩
  · obtain ⟨r, u, hcore⟩ := acceptCore_total pn pay s hlen.le hseg
    have hstep : AcceptStep pn pay s (.ok (r, u)) := hcore ▸ acceptCore_cases pn pay s
    have hr := hstep.ne_outOfOrderPacket ⟨h59, hnext⟩
    exact ⟨_, exec_faAccept_of_core hcore, by simpa using hr⟩

end Sys2Proof.Laws
end

section
/-!
PROOF. O34: a command R241 does not allow. Every code of the command port is presented in the same way, so that the
controller's refusal is one operation, `reject`, whether it is reached from the port or as SC.REJECT.
-/

namespace Sys2Proof.Laws

open Sys2Proof.Machine Sys2Proof.Safety

/-! ### Which commands are allowed (R241) -/

/-- The pairs of command code and session state in R241's list. -/
def AllowedPair (code : BitVec 3) (st : ScState) : Prop :=
  (code = 1 ∧ st = .closed) ∨ (code = 2 ∧ st = .opened) ∨ (code = 3 ∧ st = .opened) ∨ (code = 4 ∧ st = .closed)

theorem allowedCommand_iff (code : BitVec 3) (st : ScState) :
    allowedCommand code st = true ↔ AllowedPair code st := by
  constructor
  · intro h
    unfold allowedCommand at h
    split at h
    next hc => exact .inl ⟨(toNat_eq_iff code 1 (by decide)).mpr hc, rfl⟩
    next hc => exact .inr (.inl ⟨(toNat_eq_iff code 2 (by decide)).mpr hc, rfl⟩)
    next hc => exact .inr (.inr (.inl ⟨(toNat_eq_iff code 3 (by decide)).mpr hc, rfl⟩))
    next hc => exact .inr (.inr (.inr ⟨(toNat_eq_iff code 4 (by decide)).mpr hc, rfl⟩))
    next => exact absurd h Bool.false_ne_true
  · rintro (⟨rfl, rfl⟩ | ⟨rfl, rfl⟩ | ⟨rfl, rfl⟩ | ⟨rfl, rfl⟩) <;> rfl

theorem allowedCommand_eq_false {code : BitVec 3} {st : ScState} (h : ¬ AllowedPair code st) :
    allowedCommand code st = false :=
  Bool.eq_false_iff.mpr (mt (allowedCommand_iff code st).mp h)

theorem portReady_iff (s : State) : portReady s = true ↔ s.ctl.cmd = .none := beq_iff_eq

/-! ### The refusal (R241) -/

theorem reject_status (code : BitVec 3) (s : State) : (reject code s).stat.status = .errUsage := rfl

theorem reject_answers (code : BitVec 3) (s : State) : (reject code s).out.answers = s.out.answers ++ [.errUsage] := rfl

theorem reject_traced (code : BitVec 3) (s : State) : Traced s (reject code s) [.badCmd code] := rfl

theorem reject_allBut (code : BitVec 3) (s : State) : AllBut [.status, .answers, .trace] s (reject code s) := by
  intro p hp
  have h := same_refl p s
  cases p
  case status | answers | trace => simp at hp
  all_goals exact h

/-! ### A code at the port, and SC.REJECT -/

/-- What the acceptance of a command does, by its code; a reserved code is never accepted (R114, R241). -/
def acceptOfCode (code : BitVec 3) : State → State :=
  match code.toNat with
  | 1 => acceptOpen
  | 2 => acceptClose
  | 3 => acceptRetrieve
  | 4 => acceptSnapshot
  | _ => id

/-- Every code is presented at the port alike (R239, R241). -/
theorem exec_commandOfCode (code : BitVec 3) (s : State) :
    exec (commandOfCode code) s = .next (present code (acceptOfCode code) s) := by
  fin_cases code <;> rfl

theorem present_of_refused {code : BitVec 3} {s : State} (accept : State → State) (hr : portReady s = true)
    (ha : allowedCommand code s.ctl.scState = false) : present code accept s = reject code s := by
  simp [present, hr, ha]

theorem exec_scReject_of_refused {code : BitVec 3} {s : State} (hr : portReady s = true)
    (ha : allowedCommand code s.ctl.scState = false) : exec (.scReject code) s = .next (reject code s) :=
  if_pos ⟨hr, ha⟩

/-- Settles O34: at a ready port both forms of a command that is not allowed come to `reject`, whose writes are the
three the statement lists. -/
theorem usageErrorsChangeOnlyStatus : Obligations.UsageErrorsChangeOnlyStatus := by
  unfold Obligations.UsageErrorsChangeOnlyStatus
  intro i code s hi hcmd hpair
  have hr : portReady s = true := (portReady_iff s).mpr hcmd
  have ha : allowedCommand code s.ctl.scState = false := allowedCommand_eq_false hpair
  have hexec : exec i s = .next (reject code s) := by
    obtain rfl | rfl := hi
    · rw [exec_commandOfCode, present_of_refused _ hr ha]
    · exact exec_scReject_of_refused hr ha
  exact ⟨reject code s, hexec, reject_status code s, reject_answers code s, reject_traced code s, reject_allBut code s⟩

end Sys2Proof.Laws
end

section
/-!
PROOF. O51: who writes the configuration registers (R36, R323). A write of the host stores one register in `S_CLOSED` and
does nothing elsewhere; each operation of the block keeps all four, and so does every instruction but RESET.
-/

namespace Sys2Proof.Laws

open Sys2Proof.Machine Sys2Proof.Safety

/-! ### Frames that follow each other -/

theorem same_trans {p : Part} {s t u : State} (h : same p s t) (h' : same p t u) : same p s u := by
  cases p
  case segbuf | framebuf | arena | refcnt | dest => exact fun a => (h' a).trans (h a)
  case queue =>
    obtain ⟨hhead, htail, hcount, hstore⟩ := h
    obtain ⟨hhead', htail', hcount', hstore'⟩ := h'
    exact ⟨hhead'.trans hhead, htail'.trans htail, hcount'.trans hcount, fun e => (hstore' e).trans (hstore e)⟩
  all_goals exact Eq.trans h' h

theorem AllBut.trans {ps qs : List Part} {s t u : State} (h : AllBut ps s t) (h' : AllBut qs t u) :
    AllBut (qs ++ ps) s u := by
  intro p hp
  rw [List.mem_append, not_or] at hp
  obtain ⟨hq, hp⟩ := hp
  exact same_trans (h p hp) (h' p hq)

/-- Taking a line uses it up, or counts a draw (log 1). -/
theorem nextLine_allBut (s : State) : AllBut [.sched, .draws] s (nextLine s).2 := by
  intro p hp
  have h := same_refl p s
  unfold nextLine
  split
  all_goals
    cases p
    case sched | draws => simp at hp
    all_goals exact h

/-- Only the registers named may differ when the configuration registers are replaced. -/
theorem allBut_of_regs {ps : List Part} {s : State} (g : Regs)
    (hmask : .padMask ∉ ps → g.padMask = s.regs.padMask)
    (hpattern : .padPattern ∉ ps → g.padPattern = s.regs.padPattern)
    (hdeadline : .deadline ∉ ps → g.deadline = s.regs.deadline)
    (hbackoff : .backoff ∉ ps → g.backoff = s.regs.backoff) : AllBut ps s { s with regs := g } := by
  intro p hp
  have h := same_refl p s
  cases p
  case padMask => exact hmask hp
  case padPattern => exact hpattern hp
  case deadline => exact hdeadline hp
  case backoff => exact hbackoff hp
  all_goals exact h

/-! ### A write of the host (R36, R323) -/

section
variable {w : HostWrite} {r : HostReg} {p : Part} {v : Nat} {s : State}

theorem hostWrite_of_closed (hw : configWrite w = some (r, p, v)) (hc : s.ctl.scState = .closed) :
    ∃ t, hostWrite w s = .ok t ∧ hostRead t r = v ∧ AllBut [p] s t := by
  cases w with
  | padMask x =>
    cases hw
    exact ⟨{ s with regs.padMask := x }, congrArg Except.ok (if_pos hc), rfl,
      allBut_of_regs _ (by simp) (fun _ => rfl) (fun _ => rfl) (fun _ => rfl)⟩
  | padPattern x =>
    cases hw
    exact ⟨{ s with regs.padPattern := x }, congrArg Except.ok (if_pos hc), rfl,
      allBut_of_regs _ (fun _ => rfl) (by simp) (fun _ => rfl) (fun _ => rfl)⟩
  | deadline ms =>
    cases hw
    exact ⟨{ s with regs.deadline := v }, congrArg Except.ok (if_pos hc), rfl,
      allBut_of_regs _ (fun _ => rfl) (fun _ => rfl) (by simp) (fun _ => rfl)⟩
  | backoff ms =>
    cases hw
    exact ⟨{ s with regs.backoff := v }, congrArg Except.ok (if_pos hc), rfl,
      allBut_of_regs _ (fun _ => rfl) (fun _ => rfl) (fun _ => rfl) (by simp)⟩
  | dest a x => cases hw

theorem hostWrite_of_not_closed (hw : configWrite w = some (r, p, v)) (hc : s.ctl.scState ≠ .closed) :
    hostWrite w s = .ok s := by
  cases w with
  | padMask | padPattern | deadline | backoff => exact congrArg _ (if_neg hc)
  | dest => cases hw

/-- A write either leaves the registers alone or is one of theirs in `S_CLOSED`. -/
theorem hostWrite_regs {t : State} (h : hostWrite w s = .ok t) :
    t.regs = s.regs ∨ (s.ctl.scState = .closed ∧ configWrite w ≠ none) := by
  obtain ⟨rfl, -, -⟩ | ⟨hc, hstored⟩ | ⟨a, x, -, -, rfl⟩ := hostWrite_ok h
  · exact .inl rfl
  · have hconfig : configWrite w ≠ none := by
      obtain ⟨x, rfl, -⟩ | ⟨x, rfl, -⟩ | ⟨ms, rfl, -⟩ | ⟨ms, rfl, -⟩ := hstored <;> simp [configWrite]
    exact .inr ⟨hc, hconfig⟩
  · exact .inl rfl

/-- A write of the host is performed as it stands in the schedule (log 26). -/
theorem step_of_write (h : (nextLine s).1 = .write w) : step s = outcome (hostWrite w (nextLine s).2) := by
  rw [step, h, fetch, runFetched]

end

/-! ### The block's operations keep the registers -/

@[simp] theorem withCells_regs (sp : ByteSpace) (m : List Host.Cell) (s : State) : (withCells sp m s).regs = s.regs := by
  cases sp <;> rfl

@[simp] theorem chunkFilled_regs (bs : List Byte) (s : State) : (chunkFilled bs s).regs = s.regs := rfl

@[simp] theorem enqueued_regs (d : Desc) (s : State) : (enqueued d s).regs = s.regs := rfl

@[simp] theorem dequeued_regs (s : State) : (dequeued s).regs = s.regs := rfl

@[simp] theorem emitCmd_regs (st : Status) (s : State) : (emitCmd st s).regs = s.regs := by
  unfold emitCmd
  split <;> rfl

@[simp] theorem respond_regs (st : Status) (s : State) : (respond st s).regs = s.regs := by
  simp [respond]

@[simp] theorem reject_regs (code : BitVec 3) (s : State) : (reject code s).regs = s.regs := rfl

@[simp] theorem enterRetrieve_regs (s : State) : (enterRetrieve s).regs = s.regs := rfl

@[simp] theorem endRetrieve_regs (st : Status) (isOpen : Bool) (s : State) : (endRetrieve st isOpen s).regs = s.regs := by
  unfold endRetrieve
  simp only
  split
  · simp
  · split <;> simp

@[simp] theorem raiseResync_regs (c : Cause) (s : State) : (raiseResync c s).regs = s.regs := rfl

@[simp] theorem raiseInRetr_regs (c : Cause) (s : State) : (raiseInRetr c s).regs = s.regs := by
  unfold raiseInRetr
  split <;> rfl

@[simp] theorem resyncStep_regs (s : State) : (resyncStep s).regs = s.regs := by
  unfold resyncStep
  split
  · split <;> rfl
  · split <;> rfl
  · split
    · rfl
    · simp [resyncFailed]
  all_goals rfl

@[simp] theorem openConnect_regs (s : State) : (openConnect s).regs = s.regs := by
  unfold openConnect
  split <;> simp

@[simp] theorem snapshotConnect_regs (s : State) : (snapshotConnect s).regs = s.regs := by
  unfold snapshotConnect
  split <;> simp

@[simp] theorem closeJoin_regs (s : State) : (closeJoin s).regs = s.regs := by
  unfold closeJoin
  simp only
  split <;> simp

@[simp] theorem treatFares_regs (r : FaRes) (s : State) : (treatFares r s).regs = s.regs := by
  cases r with
  | incomplete => rfl
  | complete => unfold treatFares; simp only; split <;> simp
  | sequenceError d => exact raiseInRetr_regs _ s

/-- The codes of the command port (R114, R241). -/
theorem present_regs (code : BitVec 3) {accept : State → State} {s : State} (h : (accept s).regs = s.regs) :
    (present code accept s).regs = s.regs := by
  unfold present
  split
  · split
    · exact h
    · rfl
  · rfl

section
variable {s t : State}

theorem transferOk_regs (h : transferOk s = .ok t) : t.regs = s.regs := by
  simp [transferOk_ok h]

theorem transferFail_regs (h : transferFail s = .ok t) : t.regs = s.regs := by
  simp [transferFail_ok h]

theorem splitStep_regs (h : splitStep s = .ok t) : t.regs = s.regs := by
  cases splitStep_ok h with
  | ended | dropped | cancelled | sent | waits => simp

theorem fqEnqOp_regs {d : Desc} (h : fqEnqOp d s = .ok t) : t.regs = s.regs := by
  obtain ⟨-, -, rfl⟩ := fqEnqOp_ok h
  exact enqueued_regs d s

theorem fqDeqOp_regs {d : Desc} (h : fqDeqOp s = .ok (d, t)) : t.regs = s.regs := by
  obtain ⟨-, -, rfl⟩ := fqDeqOp_ok h
  exact dequeued_regs s

theorem exitAtSlice_regs (h : exitAtSlice s = .ok t) : t.regs = s.regs := by
  unfold exitAtSlice at h
  split at h
  · cases h; rfl
  · split at h
    · cases h
    · cases h
      split <;> rfl

theorem exitCancelStep_regs (h : exitCancelStep s = .ok t) : t.regs = s.regs := by
  unfold exitCancelStep at h
  split at h
  · cases h; rfl
  · split at h
    · exact exitAtSlice_regs h
    · cases h; rfl

theorem acceptCore_regs {pn : BitVec 6} {pay : List Byte} {r : FaRes} (h : acceptCore pn pay s = .ok (r, t)) :
    t.regs = s.regs := by
  have hstep : AcceptStep pn pay s (.ok (r, t)) := h ▸ acceptCore_cases pn pay s
  cases hstep with
  | outOfOrder | badOrdinal | otherSegment | adopted | plain | copied => rfl

theorem faAcceptOp_regs {pn : BitVec 6} {pay : List Byte} {r : FaRes} (h : faAcceptOp pn pay s = .ok (r, t)) :
    t.regs = s.regs := by
  obtain ⟨u, hcore, rfl⟩ := faAcceptOp_ok.mp h
  have hu : u.regs = s.regs := acceptCore_regs hcore
  exact hu

theorem treatPvres_regs {r : PvRes} {pay : List Byte} (h : treatPvres r pay s = .ok t) : t.regs = s.regs := by
  cases r with
  | fatal k => cases h; exact raiseInRetr_regs _ s
  | discard => cases h; rfl
  | sequenceNumber n =>
    change acceptAndTreat n pay s = .ok t at h
    unfold acceptAndTreat at h
    split at h
    · cases h
    · next hop => cases h; rw [treatFares_regs, faAcceptOp_regs hop]

theorem consumeStep_regs (h : consumeStep s = .ok t) : t.regs = s.regs := by
  obtain ⟨-, rfl⟩ | ⟨-, -, rfl⟩ | ⟨-, -, -, -, pkt, -, hpkt⟩ | ⟨-, -, -, rfl⟩ := consumeStep_ok h
  · simp
  · simp
  · calc
      t.regs = (putPv (validate pkt) (dequeued (emit (.consume .packet) s))).regs := treatPvres_regs hpkt
      _ = s.regs := by simp
  · rfl

theorem retrievalStep_regs (h : retrievalStep s = .ok t) : t.regs = s.regs := by
  unfold retrievalStep at h
  split at h
  · exact consumeStep_regs h
  · cases h; exact resyncStep_regs s

theorem snapshotStep_regs (h : snapshotStep s = .ok t) : t.regs = s.regs := by
  unfold snapshotStep at h
  split at h
  · cases h; exact snapshotConnect_regs s
  · exact retrievalStep_regs h
  · exact retrievalStep_regs h
  · exact retrievalStep_regs h
  · exact retrievalStep_regs h
  · cases h
    split
    · exact closeJoin_regs s
    · rfl
  · cases h; rfl
  · cases h; rfl

end

/-! ### Every instruction but RESET keeps the registers -/

/-- Where the outcome is a next state, its configuration registers are those of `s`. -/
def RegsKept (s : State) (o : Host.Outcome State Fault Refusal) : Prop := ∀ t, o = .next t → t.regs = s.regs

section
variable {s : State}

theorem RegsKept.next {u : State} (h : u.regs = s.regs) : RegsKept s (.next u) := by
  intro t ht
  cases ht
  exact h

theorem RegsKept.outcome {r : Except Fault State} (h : ∀ t, r = .ok t → t.regs = s.regs) :
    RegsKept s (Machine.outcome r) :=
  fun t ht => h t (outcome_next.mp ht)

/-- A step waits while it is not enabled (log 10). -/
theorem RegsKept.waits {c : Prop} [Decidable c] {o : Host.Outcome State Fault Refusal} (h : RegsKept s o) :
    RegsKept s (if c then o else .next s) := by
  split
  · exact h
  · exact .next rfl

/-- The packet classes: PV's result, and its treatment (R109, R234). -/
theorem RegsKept.packet (r : PvRes) (pay : List Byte) : RegsKept s (Machine.outcome (treatPvres r pay (putPv r s))) :=
  .outcome fun _ h => (treatPvres_regs h).trans (putPv_regs r s)

/-- The result classes of PV (R112, R234). -/
theorem RegsKept.pvres (r : PvRes) (pay : List Byte) : RegsKept s (Machine.outcome (treatPvres r pay s)) :=
  .outcome fun _ h => treatPvres_regs h

/-- The reserved codes (R241). -/
theorem RegsKept.reserved (code : BitVec 3) : RegsKept s (.next (if portReady s then reject code s else s)) := by
  refine .next ?_
  split <;> rfl

end

theorem execPfMatch_regsKept (b0 : Byte) (s : State) : RegsKept s (execPfMatch b0 s) := by
  refine .next ?_
  split <;> rfl

theorem execFaAccept_regsKept (pn : BitVec 6) (pay : List Byte) (s : State) : RegsKept s (execFaAccept pn pay s) := by
  intro t h
  unfold execFaAccept at h
  split at h
  · cases h
  · next hop => cases h; exact faAcceptOp_regs hop

theorem execSpTransfer_regsKept (s : State) : RegsKept s (execSpTransfer s) := by
  refine .waits (.outcome fun t h => ?_)
  split at h
  · exact transferOk_regs h
  · exact transferFail_regs h

theorem execFqDeq_regsKept (s : State) : RegsKept s (execFqDeq s) := by
  refine .waits fun t h => ?_
  split at h
  · cases h
  · next hop => cases h; exact fqDeqOp_regs hop

theorem execSpExit_regsKept (reason : ExitReason) (s : State) : RegsKept s (execSpExit reason s) := by
  cases reason with
  | cancel => exact .outcome fun _ => exitCancelStep_regs
  | transferFailure => exact .waits (.outcome fun _ => transferFail_regs)

theorem execScResync_regsKept (cause : Cause) (s : State) : RegsKept s (execScResync cause s) := by
  unfold execScResync
  split
  · exact .next (resyncStep_regs s)
  · exact .next (raiseInRetr_regs cause s)

theorem exec_regsKept (i : Instr) (s : State) (hi : i ≠ .reset) : RegsKept s (exec i s) := by
  cases i with
  | reset => exact absurd rfl hi
  | pad => exact .next rfl
  | fatal t pn crc pay => exact .packet (.fatal .errorFlag) pay
  | badnum t pn crc pay => exact .packet (.fatal .invalidPacketNumber) pay
  | blank t crc pay => exact .packet .discard pay
  | data0 | data20 | data59 | data => exact .packet (.sequenceNumber _) _
  | cmdOpen | cmdClose | cmdRetrieveFrame | cmdSnapshot => exact .next (present_regs _ rfl)
  | reserved0 | reserved5 | reserved6 | reserved7 => exact .reserved _
  | pfMatch b0 => exact execPfMatch_regsKept b0 s
  | pvValidate pkt => exact .next (putPv_regs _ s)
  | faAccept pn pay => exact execFaAccept_regsKept pn pay s
  | faReset => exact .next (faResetOp_regs s)
  | faWriteImage => exact .next (writeImageOp_regs s)
  | rbNextChunk => exact .waits (.next rfl)
  | spTransfer => exact execSpTransfer_regsKept s
  | spSplit => exact .waits (.outcome fun _ => splitStep_regs)
  | fqEnq chunk slot => exact .waits (.outcome fun _ => fqEnqOp_regs)
  | fqDeq => exact execFqDeq_regsKept s
  | fqFlush => exact .waits (.next (fqFlushOp_regs s))
  | spStart => exact .waits (.next (spStartOp_regs s))
  | spCancel => exact .next (spCancelOp_regs s)
  | spExit reason => exact execSpExit_regsKept reason s
  | scOpen => exact .waits (.next (openConnect_regs s))
  | scClose => exact .waits (.next (closeJoin_regs s))
  | scRetrieveFrame => exact .waits (.outcome fun _ => retrievalStep_regs)
  | scSnapshot => exact .waits (.outcome fun _ => snapshotStep_regs)
  | scResync cause => exact execScResync_regsKept cause s
  | scConsume => exact .waits (.outcome fun _ => consumeStep_regs)
  | tmFire | tmBackoffEnd => exact .waits (.next rfl)
  | scReject code => exact .waits (.next (reject_regs code s))
  | pvresSequenceNumber n pay => exact .pvres (.sequenceNumber n) pay
  | pvresDiscard => exact .pvres .discard []
  | pvresErrorFlag => exact .pvres (.fatal .errorFlag) []
  | pvresInvalidPacketNumber => exact .pvres (.fatal .invalidPacketNumber) []
  | faresIncomplete | faresComplete | faresOutOfOrderPacket | faresInvalidSegmentOrdinal | faresOutOfOrderSegment =>
    exact .next (treatFares_regs _ s)

theorem exec_reset (s : State) : exec .reset s = .next (powerOn s) := by
  rfl

/-- Settles O51: the registers are written by `hostWrite` in `S_CLOSED` and by `powerOn`, and by nothing else that a line
of the schedule can run. -/
theorem configurationChangesOnlyWhenClosed : Obligations.ConfigurationChangesOnlyWhenClosed := by
  unfold Obligations.ConfigurationChangesOnlyWhenClosed
  refine ⟨fun s w r p v hl hw => ?_, fun s t h => ?_⟩
  · obtain ⟨-, -, -, -, -, hctl, -⟩ := nextLine_rest s
    rw [step_of_write hl, ← hctl]
    refine ⟨fun hc => ?_, fun hc => ?_⟩
    · obtain ⟨t, ht, hread, hframe⟩ := hostWrite_of_closed hw hc
      exact ⟨t, outcome_next.mpr ht, hread, hframe, AllBut.trans (nextLine_allBut s) hframe⟩
    · exact outcome_next.mpr (hostWrite_of_not_closed hw hc)
  · obtain ⟨hcfg, -, -, -, -, hctl, -, hregs, -⟩ := nextLine_rest s
    rw [← hregs, ← hctl, ← hcfg]
    obtain ⟨i, hf, hexec⟩ | ⟨-, rfl⟩ | ⟨w, hl, hwrite⟩ := step_next h
    · by_cases hi : i = .reset
      · subst hi
        rw [exec_reset] at hexec
        cases hexec
        exact .inr (.inr ⟨hf, rfl⟩)
      · exact .inl (exec_regsKept i _ hi t hexec)
    · exact .inl rfl
    · obtain hkept | ⟨hc, hne⟩ := hostWrite_regs hwrite
      · exact .inl hkept
      · exact .inr (.inl ⟨hc, w, hl, hne⟩)

end Sys2Proof.Laws
end

section
/-!
PROOF. O1 to O4: the decoder and the encoder (R100 to R117). A packet is its header, its CRC field and its payload, and
a header its three fields; each format is then read back from its bytes, and written back to them.
-/

namespace Sys2Proof.Laws

open Sys2Proof.Machine Sys2Proof.Safety

/-! ### Words and their bytes (R13, R63) -/

theorem be16_be16Bytes (w : BitVec 16) : be16 (w.extractLsb' 8 8) (w.extractLsb' 0 8) = w := by
  rw [be16, BitVec.extractLsb'_append_extractLsb'_eq_extractLsb' (by rfl)]
  exact BitVec.extractLsb'_eq_self

theorem be16Bytes_be16 (a b : Byte) : be16Bytes (be16 a b) = [a, b] := by
  have ha : (a ++ b).extractLsb' 8 8 = a := BitVec.extractLsb'_append_eq_left
  have hb : (a ++ b).extractLsb' 0 8 = b := BitVec.extractLsb'_append_eq_right
  rw [be16Bytes, be16, ha, hb]

theorem be32_extract (w : BitVec 32) :
    be32 ((w.extractLsb' 16 16).extractLsb' 8 8) ((w.extractLsb' 16 16).extractLsb' 0 8)
      ((w.extractLsb' 0 16).extractLsb' 8 8) ((w.extractLsb' 0 16).extractLsb' 0 8) = w := by
  rw [be32, be16_be16Bytes, be16_be16Bytes, BitVec.extractLsb'_append_extractLsb'_eq_extractLsb' (by rfl)]
  exact BitVec.extractLsb'_eq_self

theorem be32Bytes_be32 (a b c d : Byte) : be32Bytes (be32 a b c d) = [a, b, c, d] := by
  have hl : (be16 a b ++ be16 c d).extractLsb' 16 16 = be16 a b := BitVec.extractLsb'_append_eq_left
  have hr : (be16 a b ++ be16 c d).extractLsb' 0 16 = be16 c d := BitVec.extractLsb'_append_eq_right
  rw [be32Bytes, be32, hl, hr, be16Bytes_be16, be16Bytes_be16]
  rfl

/-- A number that fits a field survives being laid out in a byte. -/
theorem setWidth_setWidth_byte {w : Nat} (x : BitVec w) (h : w ≤ 8) : (x.setWidth 8).setWidth w = x := by
  rw [BitVec.setWidth_setWidth_of_le x h, BitVec.setWidth_eq]

theorem setWidth_byte_of_lt {w : Nat} (b : Byte) (h : b.toNat < 2 ^ w) : (b.setWidth w).setWidth 8 = b := by
  apply BitVec.eq_of_toNat_eq
  rw [BitVec.toNat_setWidth, BitVec.toNat_setWidth, Nat.mod_eq_of_lt h, Nat.mod_eq_of_lt b.isLt]

/-! ### A packet's fields (R100 to R104) -/

section
variable (hdr crc : BitVec 16) (pay : List Byte)

@[simp] theorem pktHdr_packetBytes : pktHdr (packetBytes hdr crc pay) = hdr := be16_be16Bytes hdr

@[simp] theorem pktCrc_packetBytes : pktCrc (packetBytes hdr crc pay) = crc := be16_be16Bytes crc

@[simp] theorem pktPay_packetBytes : pktPay (packetBytes hdr crc pay) = pay := rfl

@[simp] theorem byteAt_zero_packetBytes : byteAt (packetBytes hdr crc pay) 0 = hdr.extractLsb' 8 8 := rfl

@[simp] theorem packetBytes_length : (packetBytes hdr crc pay).length = pay.length + 4 := by
  simp [packetBytes, be16Bytes]

end

/-- Bytes long enough are the packet of their three parts (R100). -/
theorem packetBytes_of_length {pkt : List Byte} (h : pkt.length = 164) :
    packetBytes (pktHdr pkt) (pktCrc pkt) (pktPay pkt) = pkt ∧ payOk (pktPay pkt) = true := by
  match pkt, h with
  | a :: b :: c :: d :: pay, h =>
    have hlen : pay.length = 160 := by simpa using h
    refine ⟨?_, by simp [payOk, pktPay, hlen]⟩
    change be16Bytes (be16 a b) ++ be16Bytes (be16 c d) ++ pay = _
    rw [be16Bytes_be16, be16Bytes_be16]
    rfl

section
variable (f : BitVec 1) (t : BitVec 3) (pn : BitVec 12)

@[simp] theorem hdrPn_mkHdr : hdrPn (mkHdr f t pn) = pn := BitVec.extractLsb'_append_eq_right

theorem mkHdr_getLsbD (i : Nat) :
    (mkHdr f t pn).getLsbD i =
      if i < 12 then pn.getLsbD i else if i - 12 < 3 then t.getLsbD (i - 12) else f.getLsbD (i - 12 - 3) := by
  have h : (mkHdr f t pn).getLsbD i = _ := BitVec.getLsbD_append (x := f ++ t) (y := pn)
  rw [h, BitVec.getLsbD_append]

@[simp] theorem hdrT_mkHdr : hdrT (mkHdr f t pn) = t := by
  apply BitVec.eq_of_getLsbD_eq
  intro i hi
  rw [hdrT, BitVec.getLsbD_extractLsb', mkHdr_getLsbD, if_neg (by omega), Nat.add_sub_cancel_left, if_pos hi,
    decide_eq_true hi, Bool.true_and]

@[simp] theorem hdrFatal_mkHdr : hdrFatal (mkHdr f t pn) = f.getLsbD 0 := by
  rw [hdrFatal, mkHdr_getLsbD, if_neg (by decide), if_neg (by decide)]

end

/-- A header is its fields put together (R101). -/
theorem mkHdr_fields (h : BitVec 16) : mkHdr (BitVec.ofBool (hdrFatal h)) (hdrT h) (hdrPn h) = h := by
  apply BitVec.eq_of_getLsbD_eq
  intro i hi
  rw [mkHdr_getLsbD]
  split
  · next h12 => simp [hdrPn, h12]
  · split
    · next h15 => simp [hdrT, h15, show 12 + (i - 12) = i by omega]
    · obtain rfl : i = 15 := by omega
      simp [hdrFatal]

theorem mkHdr_of_fatal {h : BitVec 16} (hf : hdrFatal h = true) : mkHdr 1 (hdrT h) (hdrPn h) = h := by
  have e := mkHdr_fields h
  rwa [hf] at e

theorem mkHdr_of_not_fatal {h : BitVec 16} (hf : hdrFatal h = false) : mkHdr 0 (hdrT h) (hdrPn h) = h := by
  have e := mkHdr_fields h
  rwa [hf] at e

/-! ### Packets, to bytes and back (R109) -/

/-- The decode table, on a packet given by its parts. -/
theorem decode_packetBytes (mask pattern : Byte) (hdr crc : BitVec 16) (pay : List Byte) (hpay : payOk pay = true) :
    decode mask pattern ⟨.hdr16, packetBytes hdr crc pay⟩ =
      .ok (if isPad mask pattern (hdr.extractLsb' 8 8) then .pad hdr crc pay else decodePv (packetBytes hdr crc pay)) := by
  have hlen : pay.length = 160 := by simpa [payOk] using hpay
  simp [decode, decodePacket, hlen]

/-- The rows of PV, on a packet given by its fields. -/
theorem decodePv_fatal (t : BitVec 3) (pn : BitVec 12) (crc : BitVec 16) (pay : List Byte) :
    decodePv (packetBytes (mkHdr 1 t pn) crc pay) = .fatal t pn crc pay := by
  simp [decodePv]

theorem decodePv_numbered (t : BitVec 3) (pn : BitVec 12) (crc : BitVec 16) (pay : List Byte) :
    decodePv (packetBytes (mkHdr 0 t pn) crc pay) =
      if 59 < pn.toNat then .badnum t pn crc pay
      else if pn = 0 then (if payStartZero pay then .blank t crc pay else .data0 t crc pay)
      else if pn = 20 then .data20 t crc pay
      else if pn = 59 then .data59 t crc pay
      else .data t (pn.setWidth 6) crc pay := by
  simp [decodePv]

/-- A packet of a class other than PAD is decoded by PV's rows. -/
theorem decode_of_notPad {mask pattern : Byte} {hdr crc : BitVec 16} {pay : List Byte} (hpay : payOk pay = true)
    (hpad : notPad mask pattern hdr = true) :
    decode mask pattern ⟨.hdr16, packetBytes hdr crc pay⟩ = .ok (decodePv (packetBytes hdr crc pay)) := by
  rw [decode_packetBytes _ _ _ _ _ hpay, if_neg (by simpa [notPad] using hpad)]

/-- A class of PV's rows is well formed and encoded by the packet it is read from. -/
theorem encode_decodePv {mask pattern : Byte} {pkt : List Byte} (hlen : pkt.length = 164)
    (hpad : isPad mask pattern (byteAt pkt 0) = false) :
    encode (decodePv pkt) = ⟨.hdr16, pkt⟩ ∧ wellFormed mask pattern (decodePv pkt) = true := by
  obtain ⟨hbytes, hpay⟩ := packetBytes_of_length hlen
  have hnotPad : notPad mask pattern (pktHdr pkt) = true := by
    rw [notPad, ← byteAt_zero_packetBytes (pktHdr pkt) (pktCrc pkt) (pktPay pkt), hbytes, hpad]
    rfl
  unfold decodePv
  simp only
  split
  case isTrue hf =>
    have hh := mkHdr_of_fatal hf
    exact ⟨by rw [encode, hh, hbytes], by rw [wellFormed, hh, hnotPad, hpay]; rfl⟩
  case isFalse hf =>
    have hh := mkHdr_of_not_fatal (by simpa using hf)
    split
    case isTrue hn => exact ⟨by rw [encode, hh, hbytes], by simp only [wellFormed, hh, hnotPad, hpay, hn]; rfl⟩
    case isFalse hn =>
      split
      case isTrue h0 =>
        rw [h0] at hh
        split
        case isTrue hz => exact ⟨by rw [encode, hh, hbytes], by simp only [wellFormed, hh, hnotPad, hpay, hz]; rfl⟩
        case isFalse hz => exact ⟨by rw [encode, hh, hbytes], by simp only [wellFormed, hh, hnotPad, hpay, hz]; rfl⟩
      case isFalse h0 =>
        split
        case isTrue h20 =>
          rw [h20] at hh
          exact ⟨by rw [encode, hh, hbytes], by rw [wellFormed, hh, hnotPad, hpay]; rfl⟩
        case isFalse h20 =>
          split
          case isTrue h59 =>
            rw [h59] at hh
            exact ⟨by rw [encode, hh, hbytes], by rw [wellFormed, hh, hnotPad, hpay]; rfl⟩
          case isFalse h59 =>
            have h0 := mt (toNat_eq_iff _ 0 (by decide)).mpr h0
            have h20 := mt (toNat_eq_iff _ 20 (by decide)).mpr h20
            have h59 := mt (toNat_eq_iff _ 59 (by decide)).mpr h59
            have hn' : (hdrPn (pktHdr pkt)).toNat ≤ 59 := Nat.not_lt.mp hn
            have hwide : ((hdrPn (pktHdr pkt)).setWidth 6).setWidth 12 = hdrPn (pktHdr pkt) := by
              apply BitVec.eq_of_toNat_eq
              rw [BitVec.toNat_setWidth, BitVec.toNat_setWidth]
              omega
            have hnum : dataNumber ((hdrPn (pktHdr pkt)).setWidth 6) = true := by
              rw [dataNumber, BitVec.toNat_setWidth, decide_eq_true_eq]
              omega
            exact ⟨by rw [encode, hwide, hh, hbytes], by rw [wellFormed, hwide, hh, hnotPad, hnum, hpay]; rfl⟩

/-! ### The other formats, from bytes to instructions (R112 to R117) -/

theorem noOperand_ok {rest : List Byte} {i j : Instr} (h : noOperand rest i = .ok j) : rest = [] ∧ j = i := by
  cases rest with
  | nil => cases h; exact ⟨rfl, rfl⟩
  | cons b rest => cases h

/-- A byte with a known value. -/
theorem byte_eq {b : Byte} {n : Nat} (hn : n < 256) (h : b.toNat = n) : b = BitVec.ofNat 8 n :=
  (toNat_eq_iff b n hn).mpr h

section
variable {mask pattern : Byte} {b : Byte} {rest : List Byte} {i : Instr}

theorem decodeCmd_ok (h : decodeCmd b = .ok i) : encode i = ⟨.cmd3, [b]⟩ ∧ wellFormed mask pattern i = true := by
  unfold decodeCmd at h
  split at h
  case h_9 => cases h
  all_goals
    next hb =>
    cases h
    rw [byte_eq (by decide) hb]
    exact ⟨rfl, rfl⟩

theorem decodeFares_ok (h : decodeFares b = .ok i) : encode i = ⟨.fares4, [b]⟩ ∧ wellFormed mask pattern i = true := by
  unfold decodeFares at h
  split at h
  case h_6 => cases h
  all_goals
    next hb =>
    cases h
    rw [byte_eq (by decide) hb]
    exact ⟨rfl, rfl⟩

theorem decodeFaAccept_ok (h : decodeFaAccept rest = .ok i) :
    encode i = opCode 0x03 rest ∧ wellFormed mask pattern i = true := by
  unfold decodeFaAccept at h
  split at h
  · cases h
  · next b pay =>
    split at h
    · next hlen =>
      split at h
      · next hb =>
        cases h
        exact ⟨by rw [encode, setWidth_byte_of_lt b hb], by simp [wellFormed, payOk, hlen]⟩
      · cases h
    · cases h

theorem decodeFqEnq_ok (h : decodeFqEnq rest = .ok i) :
    encode i = opCode 0x09 rest ∧ wellFormed mask pattern i = true := by
  unfold decodeFqEnq at h
  split at h
  · cases h
    exact ⟨by rw [encode, be32Bytes_be32, be32Bytes_be32]; rfl, rfl⟩
  · cases h

theorem decodeSpExit_ok (h : decodeSpExit rest = .ok i) :
    encode i = opCode 0x0E rest ∧ wellFormed mask pattern i = true := by
  unfold decodeSpExit at h
  split at h
  · next b =>
    split at h
    · next hb => cases h; rw [byte_eq (by decide) hb]; exact ⟨rfl, rfl⟩
    · next hb => cases h; rw [byte_eq (by decide) hb]; exact ⟨rfl, rfl⟩
    · cases h
  · cases h

theorem causeOfCode_some {c : BitVec 3} {k : Cause} (h : causeOfCode c = some k) : causeCode k = c := by
  unfold causeOfCode at h
  split at h
  case h_8 => cases h
  all_goals
    next hc =>
    cases h
    exact ((toNat_eq_iff c _ (by decide)).mpr hc).symm

theorem decodeScResync_ok (h : decodeScResync rest = .ok i) :
    encode i = opCode 0x14 rest ∧ wellFormed mask pattern i = true := by
  unfold decodeScResync at h
  split at h
  · next b =>
    split at h
    · next hb =>
      split at h
      · next c hc =>
        cases h
        exact ⟨by rw [encode, causeOfCode_some hc, setWidth_byte_of_lt b hb], rfl⟩
      · cases h
    · cases h
  · cases h

theorem decodeScReject_ok (h : decodeScReject rest = .ok i) :
    encode i = opCode 0x19 rest ∧ wellFormed mask pattern i = true := by
  unfold decodeScReject at h
  split at h
  · next b =>
    split at h
    · next hb =>
      cases h
      exact ⟨by rw [encode, setWidth_byte_of_lt b hb], rfl⟩
    · cases h
  · cases h

theorem decodePfMatch_ok (h : decodePfMatch rest = .ok i) :
    encode i = opCode 0x01 rest ∧ wellFormed mask pattern i = true := by
  unfold decodePfMatch at h
  split at h
  · cases h; exact ⟨rfl, rfl⟩
  · cases h

theorem decodePvValidate_ok (h : decodePvValidate rest = .ok i) :
    encode i = opCode 0x02 rest ∧ wellFormed mask pattern i = true := by
  unfold decodePvValidate at h
  split at h
  · next hlen => cases h; exact ⟨rfl, by simp [wellFormed, hlen]⟩
  · cases h

/-- The trace codes, each with its operand (R117). -/
theorem decodeOp_ok (h : decodeOp b rest = .ok i) : encode i = opCode b rest ∧ wellFormed mask pattern i = true := by
  unfold decodeOp at h
  split at h
  case h_24 => cases h
  all_goals
    rename_i hb
    rw [byte_eq (by decide) hb]
  case h_1 => exact decodePfMatch_ok h
  case h_2 => exact decodePvValidate_ok h
  case h_3 => exact decodeFaAccept_ok h
  case h_9 => exact decodeFqEnq_ok h
  case h_14 => exact decodeSpExit_ok h
  case h_19 => exact decodeScResync_ok h
  case h_23 => exact decodeScReject_ok h
  all_goals
    obtain ⟨rfl, rfl⟩ := noOperand_ok h
    exact ⟨rfl, rfl⟩

/-- The PVRES codes (R112; log 27). -/
theorem decodePvres_ok {w : BitVec 16} (h : decodePvres w rest = .ok i) :
    encode i = ⟨.pvres9, be16Bytes w ++ rest⟩ ∧ wellFormed mask pattern i = true := by
  unfold decodePvres at h
  split at h
  · next hw =>
    split at h
    · next hlen =>
      cases h
      have hword : (pvresCode (.sequenceNumber (w.setWidth 6))).setWidth 16 = w := by
        apply BitVec.eq_of_toNat_eq
        simp only [pvresCode, BitVec.toNat_setWidth, BitVec.toNat_append]
        simp
        omega
      exact ⟨by rw [encode, pvresWord, hword], by simp [wellFormed, payOk, hlen]⟩
    · cases h
  · split at h
    case h_4 => cases h
    all_goals
      next hw =>
      obtain ⟨rfl, rfl⟩ := noOperand_ok h
      rw [(toNat_eq_iff w _ (by decide)).mpr hw]
      exact ⟨rfl, rfl⟩

end

/-! ### From instructions to bytes and back -/

section
variable {mask pattern : Byte}

/-- The number of FA.ACCEPT and of a PVRES code is read back from its six bits (R112, R160). -/
theorem decode_faAccept (pn : BitVec 6) (pay : List Byte) (hpay : payOk pay = true) :
    decode mask pattern (encode (.faAccept pn pay)) = .ok (.faAccept pn pay) := by
  have hlen : pay.length = Config.payBytes := by simpa [payOk] using hpay
  have hlt : (pn.setWidth 8).toNat < 64 := by
    rw [BitVec.toNat_setWidth]
    omega
  change decodeFaAccept (pn.setWidth 8 :: pay) = _
  rw [decodeFaAccept, if_pos hlen, if_pos hlt, setWidth_setWidth_byte pn (by decide)]

theorem decode_pvresSequenceNumber (n : BitVec 6) (pay : List Byte) (hpay : payOk pay = true) :
    decode mask pattern (encode (.pvresSequenceNumber n pay)) = .ok (.pvresSequenceNumber n pay) := by
  have hlen : pay.length = Config.payBytes := by simpa [payOk] using hpay
  have hval : ((pvresCode (.sequenceNumber n)).setWidth 16).toNat = n.toNat := by
    simp only [pvresCode, BitVec.toNat_setWidth, BitVec.toNat_append]
    simp
    omega
  have hback : ((pvresCode (.sequenceNumber n)).setWidth 16).setWidth 6 = n := by
    apply BitVec.eq_of_toNat_eq
    rw [BitVec.toNat_setWidth, hval]
    omega
  change decodePvres (be16 _ _) pay = _
  rw [be16_be16Bytes, decodePvres, hval, if_pos (by omega), if_pos hlen, hback]

theorem decode_scReject (code : BitVec 3) :
    decode mask pattern (encode (.scReject code)) = .ok (.scReject code) := by
  have hlt : (code.setWidth 8).toNat < 8 := by
    rw [BitVec.toNat_setWidth]
    omega
  change decodeScReject [code.setWidth 8] = _
  rw [decodeScReject, if_pos hlt, setWidth_setWidth_byte code (by decide)]

theorem decode_fqEnq (chunk slot : BitVec 32) :
    decode mask pattern (encode (.fqEnq chunk slot)) = .ok (.fqEnq chunk slot) := by
  change Except.ok (Instr.fqEnq (be32 _ _ _ _) (be32 _ _ _ _)) = _
  rw [be32_extract, be32_extract]

theorem decode_pvValidate (pkt : List Byte) (h : pkt.length = Config.pktBytes) :
    decode mask pattern (encode (.pvValidate pkt)) = .ok (.pvValidate pkt) :=
  if_pos h

/-- The classes of PV's rows: the header is no padding, and PV's tests come to the class it was put together for. -/
theorem decode_packet_of_row {hdr crc : BitVec 16} {pay : List Byte} {i : Instr} (hpad : notPad mask pattern hdr = true)
    (hpay : payOk pay = true) (hrow : decodePv (packetBytes hdr crc pay) = i) :
    decode mask pattern ⟨.hdr16, packetBytes hdr crc pay⟩ = .ok i := by
  rw [decode_of_notPad hpay hpad, hrow]

end

/-- Settles O1: the packet classes by the decode table on a packet put together from its fields, the other instructions
by reading their code and operand bytes back. -/
theorem decodeOfEncodeIsTheInstruction : Obligations.DecodeOfEncodeIsTheInstruction := by
  unfold Obligations.DecodeOfEncodeIsTheInstruction
  intro mask pattern i hwf
  cases i
  case pad hdr crc pay =>
    obtain ⟨hpad, hpay⟩ : isPad mask pattern (hdr.extractLsb' 8 8) = true ∧ payOk pay = true := by
      simpa [wellFormed] using hwf
    rw [encode, decode_packetBytes _ _ _ _ _ hpay, if_pos hpad]
  case fatal t pn crc pay =>
    simp only [wellFormed, Bool.and_eq_true] at hwf
    obtain ⟨hpad, hpay⟩ := hwf
    exact decode_packet_of_row hpad hpay (decodePv_fatal t pn crc pay)
  case badnum t pn crc pay =>
    simp only [wellFormed, Bool.and_eq_true, decide_eq_true_eq] at hwf
    obtain ⟨⟨hpad, hn⟩, hpay⟩ := hwf
    exact decode_packet_of_row hpad hpay ((decodePv_numbered ..).trans (if_pos hn))
  case blank t crc pay =>
    simp only [wellFormed, Bool.and_eq_true] at hwf
    obtain ⟨⟨hpad, hz⟩, hpay⟩ := hwf
    exact decode_packet_of_row hpad hpay ((decodePv_numbered ..).trans (if_pos hz))
  case data0 t crc pay =>
    simp only [wellFormed, Bool.and_eq_true, Bool.not_eq_true'] at hwf
    obtain ⟨⟨hpad, hz⟩, hpay⟩ := hwf
    exact decode_packet_of_row hpad hpay ((decodePv_numbered ..).trans (if_neg (Bool.eq_false_iff.mp hz)))
  case data20 t crc pay =>
    simp only [wellFormed, Bool.and_eq_true] at hwf
    obtain ⟨hpad, hpay⟩ := hwf
    exact decode_packet_of_row hpad hpay (decodePv_numbered ..)
  case data59 t crc pay =>
    simp only [wellFormed, Bool.and_eq_true] at hwf
    obtain ⟨hpad, hpay⟩ := hwf
    exact decode_packet_of_row hpad hpay (decodePv_numbered ..)
  case data t n crc pay =>
    simp only [wellFormed, Bool.and_eq_true, dataNumber, decide_eq_true_eq] at hwf
    obtain ⟨⟨hpad, h1, h58, h20⟩, hpay⟩ := hwf
    have hwide : (n.setWidth 12).toNat = n.toNat := by
      rw [BitVec.toNat_setWidth]
      omega
    have hback : (n.setWidth 12).setWidth 6 = n := by
      rw [BitVec.setWidth_setWidth_of_le n (by decide), BitVec.setWidth_eq]
    have h0 : n.setWidth 12 ≠ 0 := mt (toNat_eq_iff _ 0 (by decide)).mp (by omega)
    have h20 : n.setWidth 12 ≠ 20 := mt (toNat_eq_iff _ 20 (by decide)).mp (by omega)
    have h59 : n.setWidth 12 ≠ 59 := mt (toNat_eq_iff _ 59 (by decide)).mp (by omega)
    refine decode_packet_of_row hpad hpay ((decodePv_numbered ..).trans ?_)
    rw [if_neg (by omega), if_neg h0, if_neg h20, if_neg h59, hback]
  case pvValidate pkt => exact decode_pvValidate pkt (beq_iff_eq.mp hwf)
  case faAccept pn pay => exact decode_faAccept pn pay hwf
  case fqEnq chunk slot => exact decode_fqEnq chunk slot
  case spExit reason => cases reason <;> rfl
  case scResync cause => cases cause <;> rfl
  case scReject code => exact decode_scReject code
  case pvresSequenceNumber n pay => exact decode_pvresSequenceNumber n pay hwf
  all_goals rfl

/-- Settles O2: each format's bytes are those the encoder writes for what they decode to. -/
theorem encodeOfDecodeIsTheBytes : Obligations.EncodeOfDecodeIsTheBytes := by
  unfold Obligations.EncodeOfDecodeIsTheBytes
  rintro mask pattern ⟨fmt, bytes⟩ i h
  cases fmt with
  | hdr16 =>
    change (if bytes.length = Config.pktBytes then Except.ok (decodePacket mask pattern bytes) else _) = _ at h
    split at h
    · next hlen =>
      cases h
      unfold decodePacket
      split
      · next hpad =>
        obtain ⟨hbytes, hpay⟩ := packetBytes_of_length hlen
        refine ⟨by rw [encode, hbytes], ?_⟩
        rw [wellFormed, ← byteAt_zero_packetBytes (pktHdr bytes) (pktCrc bytes) (pktPay bytes), hbytes, hpad, hpay]
        rfl
      · next hpad => exact encode_decodePv hlen (by simpa using hpad)
    · cases h
  | cmd3 =>
    match bytes, h with
    | [b], h => exact decodeCmd_ok h
  | op5 =>
    match bytes, h with
    | b :: rest, h => exact decodeOp_ok h
  | pvres9 =>
    match bytes, h with
    | a :: b :: rest, h =>
      have hp := decodePvres_ok (mask := mask) (pattern := pattern) h
      rwa [be16Bytes_be16] at hp
  | fares4 =>
    match bytes, h with
    | [b], h => exact decodeFares_ok h
  | powerOn =>
    match bytes, h with
    | [], h => cases h; exact ⟨rfl, rfl⟩

/-! ### The decode table's masks (R109) -/

/-- `a ∥ b` masked field by field. -/
theorem mkHdr_and (f f' : BitVec 1) (t t' : BitVec 3) (pn pn' : BitVec 12) :
    mkHdr f t pn &&& mkHdr f' t' pn' = mkHdr (f &&& f') (t &&& t') (pn &&& pn') := by
  apply BitVec.eq_of_getLsbD_eq
  intro i _
  rw [BitVec.getLsbD_and, mkHdr_getLsbD, mkHdr_getLsbD, mkHdr_getLsbD]
  split
  · rw [BitVec.getLsbD_and]
  · split <;> rw [BitVec.getLsbD_and]

/-- The bits from `k` on. -/
theorem and_high_bits {w k x : Nat} (hx : x < 2 ^ w) (hk : k ≤ w) : x &&& (2 ^ w - 2 ^ k) = x / 2 ^ k * 2 ^ k := by
  have hmask : 2 ^ w - 2 ^ k = (2 ^ (w - k) - 1) <<< k := by
    rw [Nat.shiftLeft_eq, Nat.sub_mul, one_mul, ← pow_add, Nat.sub_add_cancel hk]
  rw [hmask, ← Nat.shiftRight_eq_div_pow, ← Nat.shiftLeft_eq]
  apply Nat.eq_of_testBit_eq
  intro i
  rw [Nat.testBit_and, Nat.testBit_shiftLeft, Nat.testBit_shiftLeft, Nat.testBit_two_pow_sub_one,
    Nat.testBit_shiftRight]
  by_cases hik : k ≤ i
  · by_cases hiw : i < w
    · simp [hik, show i - k < w - k by omega, Nat.add_sub_cancel' hik]
    · have hzero : x.testBit i = false :=
        Nat.testBit_lt_two_pow (lt_of_lt_of_le hx (Nat.pow_le_pow_right (by decide) (Nat.not_lt.mp hiw)))
      simp [hzero, Nat.add_sub_cancel' hik]
  · simp [hik]

/-- The packet number, twelve bits. -/
def fieldOf (m : BitVec 16) : BitVec 12 := m.extractLsb' 0 12

/-- A row of the decode table: its mask takes bit 15 and the bits of the number from `k` on, its match has bit 15 clear. -/
theorem row_iff {h : BitVec 16} (hf : hdrFatal h = false) (m v : BitVec 16) (k q : Nat)
    (hm : m = mkHdr 1 0 (fieldOf m)) (hv : v = mkHdr 0 0 (fieldOf v)) (hk : k ≤ 12)
    (hmask : (fieldOf m).toNat = 2 ^ 12 - 2 ^ k) (hmatch : (fieldOf v).toNat = q * 2 ^ k) :
    h &&& m = v ↔ (hdrPn h).toNat / 2 ^ k = q := by
  have hmasked : h &&& m = mkHdr 0 0 (hdrPn h &&& fieldOf m) := by
    rw [hm, ← mkHdr_of_not_fatal hf, mkHdr_and, ← hm, hdrPn_mkHdr]
    simp
  have hfield : h &&& m = v ↔ hdrPn h &&& fieldOf m = fieldOf v := by
    rw [hmasked]
    constructor
    · intro e
      rw [← e]
      exact (hdrPn_mkHdr _ _ _).symm
    · intro e
      rw [e]
      exact hv.symm
  rw [hfield, ← BitVec.toNat_inj, BitVec.toNat_and, hmask, hmatch, and_high_bits (hdrPn h).isLt hk]
  exact Nat.mul_left_inj (Nat.two_pow_pos k).ne'

/-- The seven mask and match pairs of BADNUM are the numbers above 59 (R109, R143). -/
theorem badnum_rows_iff {h : BitVec 16} (hf : hdrFatal h = false) :
    (h &&& 0x8800 = 0x0800 ∨ h &&& 0x8C00 = 0x0400 ∨ h &&& 0x8E00 = 0x0200 ∨ h &&& 0x8F00 = 0x0100 ∨
      h &&& 0x8F80 = 0x0080 ∨ h &&& 0x8FC0 = 0x0040 ∨ h &&& 0x8FFC = 0x003C) ↔ 59 < (hdrPn h).toNat := by
  rw [row_iff hf 0x8800 0x0800 11 1 (by decide) (by decide) (by decide) (by decide) (by decide),
    row_iff hf 0x8C00 0x0400 10 1 (by decide) (by decide) (by decide) (by decide) (by decide),
    row_iff hf 0x8E00 0x0200 9 1 (by decide) (by decide) (by decide) (by decide) (by decide),
    row_iff hf 0x8F00 0x0100 8 1 (by decide) (by decide) (by decide) (by decide) (by decide),
    row_iff hf 0x8F80 0x0080 7 1 (by decide) (by decide) (by decide) (by decide) (by decide),
    row_iff hf 0x8FC0 0x0040 6 1 (by decide) (by decide) (by decide) (by decide) (by decide),
    row_iff hf 0x8FFC 0x003C 2 15 (by decide) (by decide) (by decide) (by decide) (by decide)]
  have hlt := (hdrPn h).isLt
  omega

/-- The rows of one number: the mask takes all twelve bits (R109). -/
theorem number_row_iff {h : BitVec 16} (hf : hdrFatal h = false) (n : Nat) (v : BitVec 16)
    (hv : v = mkHdr 0 0 (fieldOf v)) (hmatch : (fieldOf v).toNat = n) (hn : n < 2 ^ 12) :
    h &&& 0x8FFF = v ↔ hdrPn h = BitVec.ofNat 12 n := by
  rw [row_iff hf 0x8FFF v 0 n (by decide) hv (by decide) (by decide) (by omega), toNat_eq_iff _ n hn, pow_zero,
    Nat.div_one]

theorem and_flag_iff (h : BitVec 16) : h &&& 0x8000 = 0x8000 ↔ hdrFatal h = true := by
  have hmask : (0x8000 : BitVec 16) = BitVec.twoPow 16 15 := by decide
  rw [hdrFatal, hmask, BitVec.and_twoPow]
  cases h.getLsbD 15 <;> decide

theorem isPad_iff (mask pattern b0 : Byte) : isPad mask pattern b0 = true ↔ b0 &&& mask = pattern &&& mask := beq_iff_eq

theorem payStartZero_pktPay (pkt : List Byte) :
    payStartZero (pktPay pkt) = true ↔ byteAt pkt 4 = 0 ∧ byteAt pkt 5 = 0 := by
  simp [payStartZero, pktPay, byteAt]

/-- Settles O3: each test of the decoder is its row's mask and match pair, the padding test first. -/
theorem packetClassesFollowTheMasks : Obligations.PacketClassesFollowTheMasks := by
  unfold Obligations.PacketClassesFollowTheMasks
  intro mask pattern pkt
  dsimp only
  rw [decodePacket]
  refine if_congr (isPad_iff _ _ _) rfl ?_
  rw [decodePv]
  refine (ite_congr (propext (and_flag_iff _)).symm (fun _ => rfl) fun hflag => ?_)
  have hf : hdrFatal (pktHdr pkt) = false := Bool.eq_false_iff.mpr (mt (and_flag_iff _).mpr hflag)
  refine if_congr (badnum_rows_iff hf).symm rfl ?_
  refine if_congr (number_row_iff hf 0 0x0000 (by decide) (by decide) (by decide)).symm
    (if_congr (payStartZero_pktPay pkt) rfl rfl) ?_
  refine if_congr (number_row_iff hf 20 0x0014 (by decide) (by decide) (by decide)).symm rfl ?_
  refine if_congr (number_row_iff hf 59 0x003B (by decide) (by decide) (by decide)).symm rfl ?_
  rw [hdrPn, BitVec.setWidth_extractLsb'_of_le (by decide)]
  rfl

/-- A header of the opcode table comes with zeros; under the default padding registers it is a packet of PV's rows. -/
theorem decodeTableWord_header {w : Nat} {t : BitVec 3} {f : BitVec 1} {pn : BitVec 12} {i : Instr} (hw : w < 2 ^ 16)
    (hhdr : BitVec.ofNat 16 w = mkHdr f t pn)
    (hpad : notPad Config.padMaskDefault Config.padPatternDefault (mkHdr f t pn) = true)
    (hrow : decodePv (packetBytes (mkHdr f t pn) 0 (List.replicate 160 0)) = i) : decodeTableWord 16 w = some i := by
  have hcode : tableCode 16 w = some ⟨.hdr16, packetBytes (mkHdr f t pn) 0 (List.replicate 160 0)⟩ := by
    rw [tableCode, if_neg (Nat.not_le.mpr hw), ← hhdr]
  rw [decodeTableWord, hcode]
  simp only [decode_packet_of_row hpad (beq_iff_eq.mpr List.length_replicate) hrow]

/-- Settles O4: each word is laid out as its format's bytes, which decode to the row. -/
theorem tableWordsDecodeToTheirRows : Obligations.TableWordsDecodeToTheirRows := by
  unfold Obligations.TableWordsDecodeToTheirRows
  exact ⟨decodeTableWord_header (by decide) (by decide) (by decide) (decodePv_fatal 0 3 0 _),
    decodeTableWord_header (by decide) (by decide) (by decide) (decodePv_numbered 0 60 0 _),
    decodeTableWord_header (by decide) (by decide) (by decide) (decodePv_numbered 0 20 0 _), rfl, rfl, rfl, rfl⟩

end Sys2Proof.Laws
end

section
/-!
PROOF. What an instruction can do, said once: `AgentStep` for the steps of the agents, `UnitStep` for the units driven on
their own, each row with what enables it (R190 to R198, R231 to R241). The statements about every step are read off from
these two.
-/

namespace Sys2Proof.Laws

open Sys2Proof.Machine Sys2Proof.Safety

/-! ### A packet and its result (R234) -/

/-- What the controller does after a result: nothing, the entry of a resynchronisation, or, for `Complete`, the end of
the retrieval (R234). -/
inductive ResultStep (s : State) : Option FaRes → State → Prop
  | kept (r : Option FaRes) : ResultStep s r s
  | trapped (r : Option FaRes) (c : Cause) (hc : c ≠ .none) (hs : s.ctl.scState = .retr) :
      ResultStep s r (raiseResync c s)
  | completed (hs : s.ctl.scState = .retr) : ResultStep s (some .complete) (endRetrieve .ok true (writeImageOp s))

/-- What a packet does: PV's result is treated, or FA accepts it and FA's result is treated (R234). -/
inductive PacketStep (n : BitVec 6) (pay : List Byte) (s : State) : State → Prop
  | unaccepted {t : State} (h : ResultStep s none t) : PacketStep n pay s t
  | accepted {t : State} {r : FaRes} (f : Fa) (ha : AcceptStep n pay s (.ok (r, { s with fa := f })))
      (h : ResultStep (putFa r { s with fa := f }) (some r) t) : PacketStep n pay s t

theorem causeOfReason_ne_none (k : PvReason) : causeOfReason k ≠ .none := by cases k <;> decide

theorem causeOfDetail_ne_none (d : FaDetail) : causeOfDetail d ≠ .none := by cases d <;> decide

theorem raiseInRetr_step (r : Option FaRes) {c : Cause} (hc : c ≠ .none) (s : State) :
    ResultStep s r (raiseInRetr c s) := by
  unfold raiseInRetr
  split
  · next hs => exact .trapped r c hc hs
  · exact .kept r

theorem treatFares_step (r : FaRes) (s : State) : ResultStep s (some r) (treatFares r s) := by
  cases r with
  | incomplete => exact .kept _
  | complete =>
    unfold treatFares
    simp only
    split
    · next hs => exact .completed hs
    · exact .kept _
  | sequenceError d => exact raiseInRetr_step _ (causeOfDetail_ne_none d) s

/-- FA.ACCEPT writes FA, its output and the trace (R160). -/
theorem AcceptStep.eq_fa {n : BitVec 6} {pay : List Byte} {s u : State} {r : FaRes}
    (h : AcceptStep n pay s (.ok (r, u))) : u = { s with fa := u.fa } := by
  cases h with
  | outOfOrder | badOrdinal | otherSegment | adopted | plain | copied => rfl

theorem faAcceptOp_step {n : BitVec 6} {pay : List Byte} {s t : State} {r : FaRes} (h : faAcceptOp n pay s = .ok (r, t)) :
    ∃ f, AcceptStep n pay s (.ok (r, { s with fa := f })) ∧ t = putFa r { s with fa := f } := by
  obtain ⟨u, hcore, rfl⟩ := faAcceptOp_ok.mp h
  have hstep : AcceptStep n pay s (.ok (r, u)) := hcore ▸ acceptCore_cases n pay s
  have hu := hstep.eq_fa
  exact ⟨u.fa, hu ▸ hstep, by rw [← hu]; rfl⟩

theorem acceptAndTreat_step {n : BitVec 6} {pay : List Byte} {s t : State} (h : acceptAndTreat n pay s = .ok t) :
    PacketStep n pay s t := by
  unfold acceptAndTreat at h
  split at h
  · cases h
  · next r u hop =>
    cases h
    obtain ⟨f, ha, rfl⟩ := faAcceptOp_step hop
    exact .accepted f ha (treatFares_step r _)

/-- The number PV hands to FA with a result (R145). -/
def numberOf : PvRes → BitVec 6
  | .sequenceNumber n => n
  | .discard => 0
  | .fatal _ => 0

theorem treatPvres_step {r : PvRes} {pay : List Byte} {s t : State} (h : treatPvres r pay s = .ok t) :
    PacketStep (numberOf r) pay s t := by
  cases r with
  | fatal k => cases h; exact .unaccepted (raiseInRetr_step _ (causeOfReason_ne_none k) s)
  | discard => cases h; exact .unaccepted (.kept _)
  | sequenceNumber n => exact acceptAndTreat_step h

/-! ### The steps of the agents -/

/-- The state after a transfer that succeeded (R191). -/
def transferred (s : State) : State :=
  emit (.xfer s.prod.curChunk true) (request (.transfer (chunkBytes s.cfg))
    (drawn { chunkFilled (rxBytes s (chunkBytes s.cfg)) s with prod.splitIdx := 0, prod.pState := .split }))

/-- The state after a transfer that failed (R191). -/
def transferLost (s : State) : State :=
  emit (.spExit .transferFailure) (emit (.xfer s.prod.curChunk false) (request (.transfer (chunkBytes s.cfg))
    (drawn { chunkFilled (failedBytes s (chunkBytes s.cfg)) s with prod.pState := .doneFail })))

/-- The chunk under the producer lies in ARENA (R61). -/
def ChunkInside (s : State) : Prop := chunkAddr s.cfg s.prod.curChunk + chunkBytes s.cfg ≤ spaceSize s.cfg .arena

theorem transferOk_inside {s t : State} (h : transferOk s = .ok t) : ChunkInside s ∧ t = transferred s := by
  refine ⟨?_, transferOk_ok h⟩
  by_contra hout
  have hw : memWrite .arena (chunkAddr s.cfg s.prod.curChunk) (rxBytes s (chunkBytes s.cfg)) s = .error .outsideArena :=
    if_neg (by rwa [rxBytes_length])
  rw [transferOk, hw] at h
  cases h

theorem transferFail_inside {s t : State} (h : transferFail s = .ok t) : ChunkInside s ∧ t = transferLost s := by
  refine ⟨?_, transferFail_ok h⟩
  by_contra hout
  have hw : memWrite .arena (chunkAddr s.cfg s.prod.curChunk) (failedBytes s (chunkBytes s.cfg)) s =
      .error .outsideArena := if_neg (by rwa [failedBytes_length])
  rw [transferFail, hw] at h
  cases h

/-- The session is open: the producer is started on the connection (R231, R236). -/
def sessionStarted (s : State) : State := spStartOp { drawn s with ctl.trOpen := true }

/-- Everything a step of an agent can do, but for RESET. -/
inductive AgentStep (s : State) : State → Prop
  | waits : AgentStep s s
  | rejected (code : BitVec 3) (hc : s.ctl.cmd = .none) : AgentStep s (reject code s)
  | openAccepted (hc : s.ctl.cmd = .none) (hs : s.ctl.scState = .closed) : AgentStep s (acceptOpen s)
  | closeAccepted (hc : s.ctl.cmd = .none) (hs : s.ctl.scState = .opened) : AgentStep s (acceptClose s)
  | retrieveAccepted (hc : s.ctl.cmd = .none) (hs : s.ctl.scState = .opened) : AgentStep s (acceptRetrieve s)
  | snapshotAccepted (hc : s.ctl.cmd = .none) (hs : s.ctl.scState = .closed) : AgentStep s (acceptSnapshot s)
  | chunkTaken (hp : s.prod.pState = .acq) (hc : s.prod.cancel = false) (hr : refGet s s.ring.wrIdx = 0) :
      AgentStep s (takeChunk s)
  | transferred (hp : s.prod.pState = .xfer) (hin : ChunkInside s) : AgentStep s (transferred s)
  | transferLost (hp : s.prod.pState = .xfer) (hin : ChunkInside s) : AgentStep s (transferLost s)
  | split {t : State} (hp : s.prod.pState = .split) (h : SplitStep s t) : AgentStep s t
  | exited (hp : s.prod.pState = .acq) (hc : s.prod.cancel = true) : AgentStep s (exitOnCancel s)
  | opened (hs : s.ctl.scState = .opConn) (hc : s.ctl.cmd = .opening) :
      AgentStep s (respond .ok { sessionStarted s with ctl.scState := .opened })
  | snapshotOpened (hs : s.ctl.scState = .opConn) (hc : s.ctl.cmd = .snapshot) :
      AgentStep s (enterRetrieve { sessionStarted s with ctl.snapPhase := .retr })
  | connectFailed (hs : s.ctl.scState = .opConn) (hc : s.ctl.cmd = .opening ∨ s.ctl.cmd = .snapshot) :
      AgentStep s (respond .errTransport { drawn s with ctl.scState := .closed })
  | closed (hs : s.ctl.scState = .clJoin) (hp : producerTerminated s = true) : AgentStep s (closeJoin s)
  | resyncJoined (hs : s.ctl.scState = .rsJoin) (hp : producerTerminated s = true) : AgentStep s (resyncJoin s)
  | reconnecting (hs : s.ctl.scState = .rsBackoff) (hb : s.tim.boRunning = false) : AgentStep s (resyncConnect s)
  | resumed (hs : s.ctl.scState = .rsConn) : AgentStep s (resyncReturn (drawn s))
  | reopenFailed (hs : s.ctl.scState = .rsConn) : AgentStep s (resyncFailed (drawn s))
  | timedOut (hs : s.ctl.scState = .retr) : AgentStep s (endRetrieve .errTimeout true (emit (.consume .timeout) s))
  | stopped (hs : s.ctl.scState = .retr) :
      AgentStep s (raiseResync .pipelineStopped (emit (.consume .pipelineStopped) s))
  | consumed {t : State} {pkt : List Byte} (hs : s.ctl.scState = .retr) (hq : 0 < s.queue.count)
      (hh : s.queue.head < s.cfg.qcap) (hlen : pkt.length = 164)
      (h : PacketStep (numberOf (validate pkt)) (pktPay pkt)
        (putPv (validate pkt) (dequeued (emit (.consume .packet) s))) t) : AgentStep s t
  | fired : AgentStep s (emit .dlFire { s with tim.dlFired := true })
  | backoffEnded : AgentStep s (emit .boEnd { s with tim.boRunning := false })

section
variable {s t : State}

theorem present_step (code : BitVec 3) (accept : State → State)
    (h : s.ctl.cmd = .none → AllowedPair code s.ctl.scState → AgentStep s (accept s)) :
    AgentStep s (present code accept s) := by
  unfold present
  split
  · next hr =>
    have hc := (portReady_iff s).mp hr
    split
    · next ha => exact h hc ((allowedCommand_iff code _).mp ha)
    · exact .rejected code hc
  · exact .waits

theorem reserved_step (code : BitVec 3) : AgentStep s (if portReady s then reject code s else s) := by
  split
  · next hr => exact .rejected code ((portReady_iff s).mp hr)
  · exact .waits

/-- The producer's termination at a slice is the cancelled row of SP.SPLIT, or a wait (R198). -/
theorem exitAtSlice_ok (hc : s.prod.cancel = true) (h : exitAtSlice s = .ok t) : t = s ∨ SplitStep s t := by
  unfold exitAtSlice at h
  split at h
  · cases h; exact .inl rfl
  · next hi =>
    split at h
    · cases h
    · next b hb =>
      obtain rfl := curFirstByte_ok hb
      cases h
      split
      · exact .inl rfl
      · next hm => exact .inr (.cancelled hi ((pfMatch_slice s).mp (Bool.eq_false_iff.mpr hm)) hc)

theorem exitCancelStep_step (h : exitCancelStep s = .ok t) : AgentStep s t := by
  unfold exitCancelStep at h
  split at h
  · next hc => cases h; exact .exited hc.2 hc.1
  · split at h
    · next hc =>
      obtain rfl | hsplit := exitAtSlice_ok hc.1 h
      · exact .waits
      · exact .split hc.2 hsplit
    · cases h; exact .waits

theorem openConnect_step (hs : s.ctl.scState = .opConn) (hc : s.ctl.cmd = .opening) : AgentStep s (openConnect s) := by
  unfold openConnect
  split
  · exact .opened hs hc
  · exact .connectFailed hs (.inl hc)

theorem snapshotConnect_step (hs : s.ctl.scState = .opConn) (hc : s.ctl.cmd = .snapshot) :
    AgentStep s (snapshotConnect s) := by
  unfold snapshotConnect
  split
  · exact .snapshotOpened hs hc
  · exact .connectFailed hs (.inr hc)

theorem resyncStep_step (s : State) : AgentStep s (resyncStep s) := by
  unfold resyncStep
  split
  · next hs =>
    split
    · next hp => exact .resyncJoined hs hp
    · exact .waits
  · next hs =>
    split
    · exact .waits
    · next hb => exact .reconnecting hs (Bool.eq_false_iff.mpr hb)
  · next hs =>
    split
    · exact .resumed hs
    · exact .reopenFailed hs
  all_goals exact .waits

theorem consumeStep_step (hs : s.ctl.scState = .retr) (h : consumeStep s = .ok t) : AgentStep s t := by
  obtain ⟨-, rfl⟩ | ⟨-, -, rfl⟩ | ⟨-, -, hq, hh, pkt, hr, hpkt⟩ | ⟨-, -, -, rfl⟩ := consumeStep_ok h
  · exact .timedOut hs
  · exact .stopped hs
  · exact .consumed hs hq hh (readSlice_length hr) (treatPvres_step hpkt)
  · exact .waits

theorem retrievalStep_step (h : retrievalStep s = .ok t) : AgentStep s t := by
  unfold retrievalStep at h
  split at h
  · next hs => exact consumeStep_step hs h
  · cases h; exact resyncStep_step s

theorem snapshotStep_step (hc : s.ctl.cmd = .snapshot) (h : snapshotStep s = .ok t) : AgentStep s t := by
  unfold snapshotStep at h
  split at h
  · next hs => cases h; exact snapshotConnect_step hs hc
  iterate 4 exact retrievalStep_step h
  · next hs =>
    cases h
    split
    · next hp => exact .closed hs hp
    · exact .waits
  all_goals cases h; exact .waits

/-- A step that is performed where its condition holds, and waits elsewhere (log 10). -/
theorem AgentStep.of_ite {c : Prop} [Decidable c] {o : Host.Outcome State Fault Refusal}
    (h : (if c then o else .next s) = .next t) (hstep : c → o = .next t → AgentStep s t) : AgentStep s t := by
  split at h
  · next hc => exact hstep hc h
  · cases h; exact .waits

theorem transfer_step (hp : s.prod.pState = .xfer) (h : (if (answerOf s).ok then transferOk s else transferFail s) = .ok t) :
    AgentStep s t := by
  split at h
  · obtain ⟨hin, rfl⟩ := transferOk_inside h
    exact .transferred hp hin
  · obtain ⟨hin, rfl⟩ := transferFail_inside h
    exact .transferLost hp hin

theorem execSpExit_step {reason : ExitReason} (h : execSpExit reason s = .next t) : AgentStep s t := by
  cases reason with
  | cancel => exact exitCancelStep_step (outcome_next.mp h)
  | transferFailure =>
    refine .of_ite h fun hc hf => ?_
    obtain ⟨hin, rfl⟩ := transferFail_inside (outcome_next.mp hf)
    exact .transferLost hc.1 hin

/-- Every instruction that is an agent's takes one of the rows of `AgentStep`. -/
theorem exec_agentStep {i : Instr} (hi : agentInstr i = true) (hreset : i ≠ .reset) (h : exec i s = .next t) :
    AgentStep s t := by
  cases i
  case reset => exact absurd rfl hreset
  case cmdOpen =>
    cases h
    exact present_step 1 _ fun hc ha => .openAccepted hc (by simpa [AllowedPair] using ha)
  case cmdClose =>
    cases h
    exact present_step 2 _ fun hc ha => .closeAccepted hc (by simpa [AllowedPair] using ha)
  case cmdRetrieveFrame =>
    cases h
    exact present_step 3 _ fun hc ha => .retrieveAccepted hc (by simpa [AllowedPair] using ha)
  case cmdSnapshot =>
    cases h
    exact present_step 4 _ fun hc ha => .snapshotAccepted hc (by simpa [AllowedPair] using ha)
  case reserved0 | reserved5 | reserved6 | reserved7 =>
    cases h
    exact reserved_step _
  case rbNextChunk => exact .of_ite h fun ⟨hp, hc, hr⟩ ht => by cases ht; exact .chunkTaken hp hc hr
  case spTransfer => exact .of_ite h fun hp ht => transfer_step hp (outcome_next.mp ht)
  case spSplit => exact .of_ite h fun hp ht => .split hp (splitStep_ok (outcome_next.mp ht))
  case spExit reason => exact execSpExit_step h
  case scOpen => exact .of_ite h fun hc ht => by cases ht; exact openConnect_step hc.1 hc.2
  case scClose => exact .of_ite h fun hc ht => by cases ht; exact .closed hc.1 hc.2
  case scRetrieveFrame => exact .of_ite h fun _ ht => retrievalStep_step (outcome_next.mp ht)
  case scSnapshot => exact .of_ite h fun hc ht => snapshotStep_step hc (outcome_next.mp ht)
  case scResync cause =>
    obtain rfl : cause = .none := by simpa [agentInstr] using hi
    cases h
    exact resyncStep_step s
  case scConsume => exact .of_ite h fun hs ht => consumeStep_step hs (outcome_next.mp ht)
  case tmFire => exact .of_ite h fun _ ht => by cases ht; exact .fired
  case tmBackoffEnd => exact .of_ite h fun _ ht => by cases ht; exact .backoffEnded
  case scReject code =>
    exact .of_ite h fun hc ht => by cases ht; exact .rejected code ((portReady_iff s).mp hc.1)
  all_goals cases hi

end

/-! ### The units driven on their own (log 7) -/

/-- Everything a unit driven on its own can do. -/
inductive UnitStep (i : Instr) (s : State) : State → Prop
  | waits : UnitStep i s s
  | matched (b : Bool) : UnitStep i s { s with out.pf := some b }
  | dropped : UnitStep i s (emit (.pfDrop s.prod.curChunk s.prod.splitIdx) { s with out.pf := some true })
  | result {t : State} (h : ResultStep s none t) : UnitStep i s t
  | packetResult {t : State} (r : PvRes) (h : ResultStep (putPv r s) none t) : UnitStep i s t
  | data {t : State} {n : BitVec 6} {pay : List Byte} (hi : dataPacket i = some (n, pay)) (h : PacketStep n pay s t) :
      UnitStep i s t
  | packetData {t : State} {n : BitVec 6} {pay : List Byte} (r : PvRes) (hi : dataPacket i = some (n, pay))
      (h : PacketStep n pay (putPv r s) t) : UnitStep i s t
  | fares {t : State} {r : FaRes} (hi : r = .complete → i = .faresComplete) (h : ResultStep s (some r) t) :
      UnitStep i s t
  | accepted {n : BitVec 6} {pay : List Byte} {r : FaRes} (hi : i = .faAccept n pay) (f : Fa)
      (h : AcceptStep n pay s (.ok (r, { s with fa := f }))) : UnitStep i s (putFa r { s with fa := f })
  | positionReset : UnitStep i s (faResetOp s)
  | imageWritten (hi : i = .faWriteImage) : UnitStep i s (writeImageOp s)
  | appended (d : Desc) (hq : s.queue.count < s.cfg.qcap) (hd : descOk s.cfg d = true) (ht : s.queue.tail < s.cfg.qcap) :
      UnitStep i s (enqueued d s)
  | taken (hq : 0 < s.queue.count) (hh : s.queue.head < s.cfg.qcap) : UnitStep i s (dequeued s)
  | flushed (hp : producerTerminated s = true) : UnitStep i s (fqFlushOp s)
  | started (hp : s.prod.pState = .idle) (ho : s.ctl.trOpen = true) : UnitStep i s (spStartOp s)
  | cancelled : UnitStep i s (spCancelOp s)

theorem UnitStep.of_ite {i : Instr} {s t : State} {c : Prop} [Decidable c] {o : Host.Outcome State Fault Refusal}
    (h : (if c then o else .next s) = .next t) (hstep : c → o = .next t → UnitStep i s t) : UnitStep i s t := by
  split at h
  · next hc => exact hstep hc h
  · cases h; exact .waits

section
variable {s t : State}

/-- A class whose packet is handed to FA (R145). -/
theorem dataClass_step {i : Instr} {n : BitVec 6} {pay : List Byte} (hi : dataPacket i = some (n, pay))
    (h : outcome (treatPvres (.sequenceNumber n) pay (putPv (.sequenceNumber n) s)) = .next t) : UnitStep i s t :=
  .packetData _ hi (treatPvres_step (outcome_next.mp h))

/-- Every instruction that is no agent's takes one of the rows of `UnitStep`. -/
theorem exec_unitStep {i : Instr} (hi : agentInstr i = false) (h : exec i s = .next t) : UnitStep i s t := by
  cases i
  case pad => cases h; exact .dropped
  case fatal =>
    cases h
    exact .packetResult _ (raiseInRetr_step _ (causeOfReason_ne_none .errorFlag) _)
  case badnum =>
    cases h
    exact .packetResult _ (raiseInRetr_step _ (causeOfReason_ne_none .invalidPacketNumber) _)
  case blank => cases h; exact .packetResult .discard (.kept _)
  case data0 | data20 | data59 | data => exact dataClass_step rfl h
  case pfMatch b0 =>
    cases h
    split
    · next hm => rw [hm]; exact .dropped
    · exact .matched _
  case pvValidate pkt => cases h; exact .packetResult (validate pkt) (.kept _)
  case faAccept n pay =>
    change (match faAcceptOp n pay s with
      | .error f => Host.Outcome.fault f
      | .ok (_, s1) => .next s1) = .next t at h
    split at h
    · cases h
    · next hop =>
      cases h
      obtain ⟨f, ha, rfl⟩ := faAcceptOp_step hop
      exact .accepted rfl f ha
  case faReset => cases h; exact .positionReset
  case faWriteImage => cases h; exact .imageWritten rfl
  case fqEnq chunk slot =>
    refine .of_ite h fun hq ht => ?_
    obtain ⟨hd, htail, rfl⟩ := fqEnqOp_ok (outcome_next.mp ht)
    exact .appended _ (by simpa [enqReady] using hq) hd htail
  case fqDeq =>
    refine .of_ite h fun hq ht => ?_
    split at ht
    · cases ht
    · next hop =>
      cases ht
      obtain ⟨hh, -, rfl⟩ := fqDeqOp_ok hop
      exact .taken (by simpa [deqValid] using hq) hh
  case fqFlush => exact .of_ite h fun hp ht => by cases ht; exact .flushed hp
  case spStart => exact .of_ite h fun hp ht => by cases ht; exact .started hp.1 hp.2
  case spCancel => cases h; exact .cancelled
  case scResync cause =>
    have hc : cause ≠ .none := by simpa [agentInstr] using hi
    change execScResync cause s = .next t at h
    rw [execScResync, if_neg hc] at h
    cases h
    exact .result (raiseInRetr_step _ hc s)
  case pvresSequenceNumber n pay => exact .data rfl (treatPvres_step (r := .sequenceNumber n) (outcome_next.mp h))
  case pvresDiscard => cases h; exact .waits
  case pvresErrorFlag => cases h; exact .result (raiseInRetr_step _ (causeOfReason_ne_none .errorFlag) s)
  case pvresInvalidPacketNumber =>
    cases h
    exact .result (raiseInRetr_step _ (causeOfReason_ne_none .invalidPacketNumber) s)
  case faresIncomplete | faresOutOfOrderPacket | faresInvalidSegmentOrdinal | faresOutOfOrderSegment =>
    cases h
    exact .fares (by simp) (treatFares_step _ s)
  case faresComplete => cases h; exact .fares (fun _ => rfl) (treatFares_step .complete s)
  all_goals cases hi

end

end Sys2Proof.Laws
end

section
/-!
PROOF. O16, O47: the stores and FA under any schedule (R45 items 3 and 4, R60, R169, R172, R173). What an operation does
to the stores is said once for each operation that writes one; the others leave the data path as it is.
-/

namespace Sys2Proof.Laws

open Sys2Proof.Machine Sys2Proof.Safety

/-! ### The image (R67, R169) -/

/-- The word of FRAMEBUF shown at word `w` of DEST. -/
def imageWord (s : State) (w : Nat) : BitVec 16 :=
  be16 (readByte s .framebuf (2 * w)) (readByte s .framebuf (2 * w + 1))

theorem framePixel_eq (s : State) (k j : Nat) : framePixel s k j = imageWord s (80 * k + j) := by
  rw [framePixel, imageWord, show k * Config.payBytes + 2 * j = 2 * (80 * k + j) by simp only [Config.payBytes]; omega]

/-- Counting row by row is counting. -/
theorem range_flatMap_rows (m n : Nat) :
    ((List.range m).flatMap fun k => (List.range n).map fun j => n * k + j) = List.range (m * n) := by
  induction m with
  | zero => simp
  | succ m ih =>
    rw [List.range_succ, List.flatMap_append, ih, Nat.succ_mul, List.range_add]
    simp [Nat.mul_comm]

/-- Slot by slot, FA.WRITE_IMAGE writes the words of DEST in the order of their addresses. -/
theorem imageCells_eq (s : State) : imageCells s = (List.range 19200).map fun w => (w, imageWord s w) := by
  have hrows : List.range 19200 = _ := (range_flatMap_rows 240 80).symm
  rw [hrows, List.map_flatMap]
  unfold imageCells
  refine congrArg (fun f => (List.range 240).flatMap f) (funext fun k => ?_)
  rw [List.map_map]
  refine List.map_congr_left fun j _ => ?_
  rw [slotPixelAddr_eq, framePixel_eq]
  rfl

theorem cellGet_map_range {α : Type} (f : Nat → α) (n a : Nat) :
    cellGet ((List.range n).map fun w => (w, f w)) a = if a < n then some (f a) else none := by
  induction n with
  | zero => simp [cellGet]
  | succ n ih =>
    rw [List.range_succ, List.map_append, cellGet_append, ih]
    by_cases h : a < n
    · simp [h, Nat.lt_succ_of_lt h]
    · by_cases ha : n = a
      · subst ha; simp [cellGet]
      · simp [cellGet, h, ha, show ¬ a < n + 1 by omega]

/-- DEST after FA.WRITE_IMAGE: the image below 19200, what was there above. -/
theorem readDest_writeImageOp (s : State) (a : Nat) :
    readDest (writeImageOp s) a = if a < 19200 then imageWord s a else readDest s a := by
  rw [readDest, writeImageOp_dest, cellGet_append, imageCells_eq, cellGet_map_range,
    cellGet_filter s.dest (fun k => decide (Config.destWords ≤ k))]
  by_cases h : a < 19200
  · simp [h]
  · simp [h, Nat.not_lt.mp h, readDest]

theorem writeImageOp_imageWritten (s : State) : ImageWritten s (writeImageOp s) := fun w hw => by
  rw [readDest_writeImageOp, if_pos hw]
  rfl

theorem writeImageOp_traced (s : State) : Traced s (writeImageOp s) [.writeImage] := rfl

theorem writeImageOp_allBut (s : State) : AllBut [.dest, .trace] s (writeImageOp s) := by
  refine AllBut.emit (fun p hp => ?_) (by decide) .writeImage
  have h := same_refl p s
  cases p
  case dest => simp at hp
  all_goals exact h

/-- Settles O16: the words are written in the order of their addresses, each from its two bytes of FRAMEBUF. -/
theorem writeImageMapsEverySlot : Obligations.WriteImageMapsEverySlot := by
  unfold Obligations.WriteImageMapsEverySlot
  intro s
  refine ⟨writeImageOp s, rfl, fun k j hk hj => ?_, writeImageOp_imageWritten s, fun a ha => ?_, writeImageOp_traced s,
    writeImageOp_allBut s⟩
  · have haddr : k / 2 * 160 + (k % 2 * 80 + j) = 80 * k + j := by omega
    rw [haddr, readDest_writeImageOp, if_pos (by omega), imageWord, show 2 * (80 * k + j) = k * 160 + 2 * j by omega]
  · rw [readDest_writeImageOp, if_neg (Nat.not_lt.mpr ha)]

theorem imageCells_wf (s : State) (m : List (Nat × BitVec 16)) (h : Memory.wf m) :
    Memory.wf (imageCells s ++ m.filter fun c => decide (Config.destWords ≤ c.1)) := by
  rw [imageCells_eq]
  refine List.pairwise_append.mpr ⟨List.pairwise_map.mpr List.pairwise_lt_range, h.filter _, fun a ha b hb => ?_⟩
  obtain ⟨w, hw, rfl⟩ := List.mem_map.mp ha
  have hlt := List.mem_range.mp hw
  have hle : 19200 ≤ b.1 := of_decide_eq_true (List.mem_filter.mp hb).2
  exact lt_of_lt_of_le hlt hle

theorem imageCells_below (s : State) (m : List (Nat × BitVec 16)) (h : Below m Config.destWords) :
    Below (imageCells s ++ m.filter fun c => decide (Config.destWords ≤ c.1)) Config.destWords := by
  rw [imageCells_eq]
  intro c hc
  obtain hc | hc := List.mem_append.mp hc
  · obtain ⟨w, hw, rfl⟩ := List.mem_map.mp hc
    exact List.mem_range.mp hw
  · exact h c (List.mem_filter.mp hc).1

/-! ### What the controller leaves alone -/

/-- The data path is as it was: the build, FA, RB, FQ, the producer's position, DEST and the transport's script. -/
structure DataKept (s t : State) : Prop where
  cfg : t.cfg = s.cfg
  fa : t.fa = s.fa
  ring : t.ring = s.ring
  queue : t.queue = s.queue
  dest : t.dest = s.dest
  env : t.env = s.env
  pState : t.prod.pState = s.prod.pState
  curChunk : t.prod.curChunk = s.prod.curChunk
  splitIdx : t.prod.splitIdx = s.prod.splitIdx

theorem DataKept.refl (s : State) : DataKept s s := ⟨rfl, rfl, rfl, rfl, rfl, rfl, rfl, rfl, rfl⟩

theorem DataKept.trans {s t u : State} (h : DataKept s t) (h' : DataKept t u) : DataKept s u :=
  ⟨h'.cfg.trans h.cfg, h'.fa.trans h.fa, h'.ring.trans h.ring, h'.queue.trans h.queue, h'.dest.trans h.dest,
    h'.env.trans h.env, h'.pState.trans h.pState, h'.curChunk.trans h.curChunk, h'.splitIdx.trans h.splitIdx⟩

theorem emitCmd_dataKept (st : Status) (s : State) : DataKept s (emitCmd st s) := by
  unfold emitCmd
  split <;> exact ⟨rfl, rfl, rfl, rfl, rfl, rfl, rfl, rfl, rfl⟩

theorem respond_dataKept (st : Status) (s : State) : DataKept s (respond st s) := by
  obtain ⟨hcfg, hfa, hring, hqueue, hdest, henv, hp, hc, hi⟩ := emitCmd_dataKept st { s with stat.status := st }
  exact ⟨hcfg, hfa, hring, hqueue, hdest, henv, hp, hc, hi⟩

theorem endRetrieve_dataKept (st : Status) (isOpen : Bool) (s : State) : DataKept s (endRetrieve st isOpen s) := by
  unfold endRetrieve
  simp only
  split
  · refine DataKept.trans ?_ (respond_dataKept st _)
    exact ⟨rfl, rfl, rfl, rfl, rfl, rfl, rfl, rfl, rfl⟩
  · split
    · exact ⟨rfl, rfl, rfl, rfl, rfl, rfl, rfl, rfl, rfl⟩
    · refine DataKept.trans ?_ (respond_dataKept st _)
      exact ⟨rfl, rfl, rfl, rfl, rfl, rfl, rfl, rfl, rfl⟩

theorem raiseResync_dataKept (c : Cause) (s : State) : DataKept s (raiseResync c s) :=
  ⟨rfl, rfl, rfl, rfl, rfl, rfl, rfl, rfl, rfl⟩

/-- The steps that write the controller, the timers, the answers and the requests only. -/
theorem reject_dataKept (code : BitVec 3) (s : State) : DataKept s (reject code s) :=
  ⟨rfl, rfl, rfl, rfl, rfl, rfl, rfl, rfl, rfl⟩

/-! ### The stores (R60) -/

section
variable {s t : State}

/-- The form of the stores depends on the stores alone. -/
theorem MemInv.of_eq (h : MemInv s) (hcfg : t.cfg = s.cfg) (harena : t.ring.arena = s.ring.arena)
    (hrefcnt : t.ring.refcnt = s.ring.refcnt) (hsegbuf : t.fa.segbuf = s.fa.segbuf)
    (hframebuf : t.fa.framebuf = s.fa.framebuf) (hstore : t.queue.store = s.queue.store) (hdest : t.dest = s.dest) :
    MemInv t := by
  obtain ⟨h1, h2, h3, h4, h5, h6, h7, h8, h9, h10, h11, h12⟩ := h
  rw [← harena] at h1 h8
  rw [← hsegbuf] at h2 h9
  rw [← hframebuf] at h3 h10
  rw [← hdest] at h4 h11
  rw [← hstore] at h5 h12
  rw [← hrefcnt] at h6 h7
  rw [← hcfg] at h8 h12
  exact ⟨h1, h2, h3, h4, h5, h6, h7, h8, h9, h10, h11, h12⟩

theorem MemInv.of_dataKept (h : MemInv s) (hk : DataKept s t) : MemInv t :=
  MemInv.of_eq h hk.cfg (by rw [hk.ring]) (by rw [hk.ring]) (by rw [hk.fa]) (by rw [hk.fa]) (by rw [hk.queue]) hk.dest

theorem MemInv.noRefs (h : MemInv s) : MemInv { s with ring.refcnt := [] } :=
  { h with refcnt_wf := .nil, refcnt_pos := by simp }

theorem MemInv.spStart (h : MemInv s) : MemInv (spStartOp s) := MemInv.of_eq (MemInv.noRefs h) rfl rfl rfl rfl rfl rfl rfl

theorem MemInv.fqFlush (h : MemInv s) : MemInv (fqFlushOp s) := MemInv.of_eq (MemInv.noRefs h) rfl rfl rfl rfl rfl rfl rfl

theorem MemInv.chunkFilled (h : MemInv s) (hin : ChunkInside s) {bs : List Byte} (hl : bs.length = chunkBytes s.cfg) :
    MemInv (chunkFilled bs s) :=
  { h with
    arena_wf := cellsSet_wf _ _ _ h.arena_wf
    arena_below := cellsSet_below _ _ _ _ h.arena_below (by rw [hl]; exact hin) }

theorem MemInv.enqueued (h : MemInv s) (d : Desc) (ht : s.queue.tail < s.cfg.qcap) : MemInv (enqueued d s) :=
  { h with
    store_wf := cellsSet_wf _ _ _ h.store_wf
    store_below := cellsSet_below _ _ _ _ h.store_below ht
    refcnt_wf := refSet_wf _ d.chunk (refGet s d.chunk + 1) h.refcnt_wf
    refcnt_pos := refSet_pos _ d.chunk (refGet s d.chunk + 1) h.refcnt_pos }

theorem MemInv.dequeued (h : MemInv s) : MemInv (dequeued s) :=
  { h with
    refcnt_wf := refSet_wf _ _ _ h.refcnt_wf
    refcnt_pos := refSet_pos _ _ _ h.refcnt_pos }

theorem MemInv.writeImage (h : MemInv s) : MemInv (writeImageOp s) :=
  { h with
    dest_wf := imageCells_wf s _ h.dest_wf
    dest_below := imageCells_below s _ h.dest_below }

theorem MemInv.stored (h : MemInv s) {n : BitVec 6} {pay : List Byte} (hl : n.toNat * 160 + pay.length ≤ 9600) :
    MemInv (stored n pay s) :=
  { h with
    segbuf_wf := cellsSet_wf _ _ _ h.segbuf_wf
    segbuf_below := cellsSet_below _ _ _ _ h.segbuf_below hl }

theorem MemInv.segmentCopied (h : MemInv s) (h4 : s.fa.segOrd.toNat ≤ 4) : MemInv (segmentCopied s) :=
  { h with
    framebuf_wf := cellsSet_wf _ _ _ h.framebuf_wf
    framebuf_below := cellsSet_below _ _ _ _ h.framebuf_below (by
      rw [readBytes_length]
      simp only [Config.frameBytes]
      omega) }

theorem MemInv.powerOn (h : MemInv s) : MemInv (powerOn s) where
  arena_wf := .nil
  segbuf_wf := .nil
  framebuf_wf := .nil
  dest_wf := h.dest_wf
  store_wf := .nil
  refcnt_wf := .nil
  refcnt_pos := by simp [Ring.reset]
  arena_below := by simp [Below, Ring.reset]
  segbuf_below := by simp [Below, Fa.reset]
  framebuf_below := by simp [Below, Fa.reset]
  dest_below := h.dest_below
  store_below := by simp [Below, Queue.reset]

theorem MemInv.accept (h : MemInv s) {n : BitVec 6} {pay : List Byte} {r : FaRes} {u : State}
    (ha : AcceptStep n pay s (.ok (r, u))) : MemInv u := by
  cases ha with
  | outOfOrder => exact h
  | badOrdinal _ hl | otherSegment _ hl | adopted _ hl | plain _ hl => exact MemInv.of_eq (MemInv.stored h hl) rfl rfl rfl rfl rfl rfl rfl
  | copied _ hl _ _ h4 => exact MemInv.of_eq (MemInv.segmentCopied (MemInv.stored h hl) h4) rfl rfl rfl rfl rfl rfl rfl

/-! ### FA (R172, R173, R175) -/

/-- How many regions of FRAMEBUF hold a whole pass, by FA's position. -/
def regionsOf (l : Option (BitVec 6)) (o : BitVec 3) : Nat :=
  match l with
  | none => 0
  | some n => if 20 ≤ n.toNat ∧ n.toNat ≤ 58 then o.toNat - 1 else o.toNat

theorem wholeRegions_eq (s : State) : wholeRegions s = regionsOf s.fa.lastPn s.fa.segOrd := by
  unfold wholeRegions regionsOf
  split <;> next hl => simp [hl]

/-- The slots of SEGBUF up to `last_pn` and the whole regions of FRAMEBUF have a property of addresses each. -/
structure Covered (l : Option (BitVec 6)) (o : BitVec 3) (seg frame : Nat → Prop) : Prop where
  segbuf : ∀ n, l = some n → ∀ a, a < (n.toNat + 1) * 160 → seg a
  framebuf : ∀ a, a < regionsOf l o * 9600 → frame a

theorem Covered.mono {l : Option (BitVec 6)} {o : BitVec 3} {seg frame seg' frame' : Nat → Prop}
    (h : Covered l o seg frame) (hseg : ∀ a, seg a → seg' a) (hframe : ∀ a, frame a → frame' a) :
    Covered l o seg' frame' :=
  ⟨fun n hn a ha => hseg a (h.segbuf n hn a ha), fun a ha => hframe a (h.framebuf a ha)⟩

theorem covered_none (seg frame : Nat → Prop) : Covered none 0 seg frame :=
  ⟨fun n hn => absurd hn (by simp), fun a ha => absurd ha (by simp [regionsOf])⟩

/-- The number before an accepted one. -/
theorem lastPn_of_nextPn {l : Option (BitVec 6)} {n : Nat} (h : n + 1 = nextPn l) :
    ∃ m, l = some m ∧ m.toNat = n := by
  unfold nextPn at h
  split at h
  · omega
  · next m =>
    split at h
    · omega
    · exact ⟨m, rfl, by omega⟩

theorem nextPn_eq_zero {l : Option (BitVec 6)} (h : nextPn l = 0) : l = none ∨ l = some 59 := by
  unfold nextPn at h
  split at h
  · exact .inl rfl
  · next m =>
    split at h
    · next hm => exact .inr (by rw [hm])
    · omega

/-- FA moves to the packet it accepts: its slot of SEGBUF, and with packet 59 the region of the pass, are covered too
(R162, R164, R173). -/
theorem Covered.advance {l : Option (BitVec 6)} {o o' : BitVec 3} {seg frame seg' frame' : Nat → Prop} {n : BitVec 6}
    (h : Covered l o seg frame) (hnone : l = none → o = 0) (hn : n.toNat ≤ 59) (hnext : n.toNat = nextPn l)
    (ho : n.toNat ≠ 20 → o' = o) (ho20 : o'.toNat ≤ o.toNat + 1)
    (hseg : ∀ a, seg a → seg' a) (hframe : ∀ a, frame a → frame' a)
    (hslot : ∀ a, n.toNat * 160 ≤ a → a < n.toNat * 160 + 160 → seg' a)
    (hregion : n.toNat = 59 → 1 ≤ o.toNat → (∀ a, a < 9600 → seg' a) →
      ∀ a, (o.toNat - 1) * 9600 ≤ a → a < (o.toNat - 1) * 9600 + 9600 → frame' a) :
    Covered (some n) o' seg' frame' := by
  have hsegbuf : ∀ a, a < (n.toNat + 1) * 160 → seg' a := by
    intro a ha
    by_cases hge : n.toNat * 160 ≤ a
    · exact hslot a hge (by omega)
    · obtain ⟨k, hk⟩ : ∃ k, n.toNat = k + 1 := ⟨n.toNat - 1, by omega⟩
      obtain ⟨m, hl, hm⟩ := lastPn_of_nextPn (hk ▸ hnext)
      exact hseg a (h.segbuf m hl a (by omega))
  refine ⟨fun m hm a ha => hsegbuf a (by cases hm; exact ha), fun a ha => ?_⟩
  have hregions : regionsOf (some n) o' ≤ regionsOf l o ∨
      (n.toNat = 59 ∧ regionsOf (some n) o' = o.toNat ∧ regionsOf l o = o.toNat - 1) := by
    obtain hz | ⟨k, hk⟩ : n.toNat = 0 ∨ ∃ k, n.toNat = k + 1 := by
      cases n.toNat with
      | zero => exact .inl rfl
      | succ k => exact .inr ⟨k, rfl⟩
    · rw [ho (by omega)]
      obtain rfl | rfl := nextPn_eq_zero (hnext ▸ hz)
      · rw [hnone rfl]
        exact .inl (by simp [regionsOf])
      · exact .inl (by simp [regionsOf, hz])
    · obtain ⟨m, rfl, hm⟩ := lastPn_of_nextPn (hk ▸ hnext)
      by_cases h20 : n.toNat = 20
      · left
        simp only [regionsOf, h20, hm, show k = 19 by omega]
        norm_num
        omega
      · rw [ho h20]
        simp only [regionsOf, hm]
        split <;> split <;> omega
  obtain hle | ⟨h59, heq, hbefore⟩ := hregions
  · exact hframe a (h.framebuf a (lt_of_lt_of_le ha (Nat.mul_le_mul_right _ hle)))
  · by_cases hlow : a < (o.toNat - 1) * 9600
    · exact hframe a (h.framebuf a (by rw [hbefore]; exact hlow))
    · rw [heq] at ha
      have ho1 : 1 ≤ o.toNat := by
        by_contra hzero
        rw [show o.toNat = 0 by omega] at ha
        omega
      have hupto : a < (o.toNat - 1) * 9600 + 9600 := by
        rw [← Nat.succ_mul, Nat.succ_eq_add_one, Nat.sub_add_cancel ho1]
        exact ha
      exact hregion h59 ho1 (fun b hb => hsegbuf b (by rw [h59]; exact hb)) a (Nat.not_lt.mp hlow) hupto

theorem FaInv.covered (h : FaInv s) :
    Covered s.fa.lastPn s.fa.segOrd (fun a => written s .segbuf a = true) (fun a => written s .framebuf a = true) :=
  ⟨h.seg_written, by rw [← wholeRegions_eq]; exact h.frame_written⟩

theorem faInv_of_covered (hle : s.fa.segOrd.toNat ≤ 4) (hlast : ∀ l, s.fa.lastPn = some l → l.toNat ≤ 59)
    (hnone : s.fa.lastPn = none → s.fa.segOrd = 0)
    (h : Covered s.fa.lastPn s.fa.segOrd (fun a => written s .segbuf a = true) (fun a => written s .framebuf a = true)) :
    FaInv s :=
  ⟨hle, hlast, hnone, h.segbuf, by rw [wholeRegions_eq]; exact h.framebuf⟩

theorem FaInv.of_eq (h : FaInv s) (hfa : t.fa = s.fa) : FaInv t := by
  have hw : ∀ a, (written t .segbuf a = written s .segbuf a) ∧ (written t .framebuf a = written s .framebuf a) := by
    intro a
    simp only [written, cellsOf, hfa, and_self]
  refine faInv_of_covered (hfa ▸ h.segOrd_le) (hfa ▸ h.lastPn_le) (hfa ▸ h.segOrd_none) ?_
  rw [hfa]
  exact (FaInv.covered h).mono (fun a ha => (hw a).1.trans ha) fun a ha => (hw a).2.trans ha

/-- A reset position covers nothing (R168, R171). -/
theorem faInv_of_reset (hl : t.fa.lastPn = none) (ho : t.fa.segOrd = 0) : FaInv t := by
  refine faInv_of_covered (by rw [ho]; decide) (by simp [hl]) (fun _ => ho) ?_
  rw [hl, ho]
  exact covered_none _ _

section
variable {n : BitVec 6} {pay : List Byte}

theorem written_stored (n : BitVec 6) (pay : List Byte) (s : State) (a : Nat)
    (h : (n.toNat * 160 ≤ a ∧ a < n.toNat * 160 + pay.length) ∨ written s .segbuf a = true) :
    written (stored n pay s) .segbuf a = true :=
  isSome_cellsSet _ _ _ _ h

theorem written_segmentCopied (s : State) (a : Nat)
    (h : ((s.fa.segOrd.toNat - 1) * 9600 ≤ a ∧ a < (s.fa.segOrd.toNat - 1) * 9600 + 9600) ∨
      written s .framebuf a = true) : written (segmentCopied s) .framebuf a = true :=
  isSome_cellsSet _ _ _ _ (by rwa [readBytes_length])

/-- A packet in sequence moves FA to its number; `u` is the state with the position and the buffers it leaves. -/
theorem FaInv.advance {u : State} (h : FaInv s) (hlen : pay.length = 160)
    (hn : n.toNat ≤ 59 ∧ n.toNat = nextPn s.fa.lastPn) (hl : u.fa.lastPn = some n) (ho4 : u.fa.segOrd.toNat ≤ 4)
    (ho : n.toNat ≠ 20 → u.fa.segOrd = s.fa.segOrd) (ho20 : u.fa.segOrd.toNat ≤ s.fa.segOrd.toNat + 1)
    (hseg : ∀ a, written (stored n pay s) .segbuf a = true → written u .segbuf a = true)
    (hframe : ∀ a, written s .framebuf a = true → written u .framebuf a = true)
    (hregion : n.toNat = 59 → 1 ≤ s.fa.segOrd.toNat →
      ∀ a, (s.fa.segOrd.toNat - 1) * 9600 ≤ a → a < (s.fa.segOrd.toNat - 1) * 9600 + 9600 →
        written u .framebuf a = true) : FaInv u := by
  obtain ⟨hn59, hnext⟩ := hn
  refine faInv_of_covered ho4 (by rw [hl]; rintro l hl'; cases hl'; exact hn59) (by simp [hl]) ?_
  rw [hl]
  refine (FaInv.covered h).advance h.segOrd_none hn59 hnext ho ho20
    (fun a ha => hseg a (written_stored n pay s a (.inr ha)))
    hframe (fun a h1 h2 => hseg a (written_stored n pay s a (.inl ⟨h1, by omega⟩))) fun h59 ho1 _ => hregion h59 ho1

/-- A payload stored is no step of FA's position (R166). -/
theorem FaInv.stored (h : FaInv s) (n : BitVec 6) (pay : List Byte) : FaInv (stored n pay s) :=
  faInv_of_covered h.segOrd_le h.lastPn_le h.segOrd_none
    ((FaInv.covered h).mono (fun a ha => written_stored n pay s a (.inr ha)) fun _ ha => ha)

theorem ordinal_toNat (o : BitVec 4) (h : o.toNat ≤ 4) : (o.setWidth 3).toNat = o.toNat := by
  rw [BitVec.toNat_setWidth]
  omega

theorem FaInv.accept {u : State} {r : FaRes} (h : FaInv s) (hlen : pay.length = 160)
    (ha : AcceptStep n pay s (.ok (r, u))) : FaInv u := by
  cases ha with
  | outOfOrder => exact h
  | badOrdinal | otherSegment => exact FaInv.stored h n pay
  | adopted hseq _ hp _ h4 ho =>
    have hord : ((payOrd pay).setWidth 3).toNat = (payOrd pay).toNat := ordinal_toNat _ h4
    refine FaInv.advance h hlen hseq rfl (hord.trans_le h4) (fun hne => absurd ?_ hne) (hord.trans ho).le
      (fun _ ha => ha) (fun _ ha => ha) fun h59 => absurd h59 ?_
    · rw [hp]; rfl
    · rw [hp]; decide
  | plain hseq _ hp =>
    refine FaInv.advance h hlen hseq rfl h.segOrd_le (fun _ => rfl) (Nat.le_succ _) (fun _ ha => ha) (fun _ ha => ha)
      fun h59 ho1 => ?_
    obtain ⟨rfl, -⟩ | ⟨-, hzero⟩ := hp
    · exact absurd h59 (by decide)
    · have := hzero ((toNat_eq_iff n 59 (by decide)).mpr h59)
      omega
  | copied hseq _ hp =>
    refine FaInv.advance h hlen hseq rfl h.segOrd_le (fun _ => rfl) (Nat.le_succ _) (fun _ ha => ha)
      (fun a ha => ?_) fun _ _ a h1 h2 => ?_
    · exact written_segmentCopied (Laws.stored n pay s) a (.inr ha)
    · exact written_segmentCopied (Laws.stored n pay s) a (.inl ⟨h1, h2⟩)

end

/-! ### Every step (R60, R172, R173) -/

/-- The stores have their form and their bounds, and FA its invariants. -/
def StoresOk (s : State) : Prop := MemInv s ∧ FaInv s

theorem StoresOk.of_eq (h : StoresOk s) (hcfg : t.cfg = s.cfg) (hfa : t.fa = s.fa)
    (harena : t.ring.arena = s.ring.arena) (hrefcnt : t.ring.refcnt = s.ring.refcnt)
    (hstore : t.queue.store = s.queue.store) (hdest : t.dest = s.dest) : StoresOk t := by
  obtain ⟨hm, hf⟩ := h
  exact ⟨MemInv.of_eq hm hcfg harena hrefcnt (by rw [hfa]) (by rw [hfa]) hstore hdest, FaInv.of_eq hf hfa⟩

theorem DataKept.storesOk (hk : DataKept s t) (h : StoresOk s) : StoresOk t :=
  h.of_eq hk.cfg hk.fa (by rw [hk.ring]) (by rw [hk.ring]) (by rw [hk.queue]) hk.dest

theorem StoresOk.spStart (h : StoresOk s) : StoresOk (spStartOp s) := ⟨MemInv.spStart h.1, FaInv.of_eq h.2 rfl⟩

theorem StoresOk.fqFlush (h : StoresOk s) : StoresOk (fqFlushOp s) := ⟨MemInv.fqFlush h.1, FaInv.of_eq h.2 rfl⟩

theorem StoresOk.faReset (h : StoresOk s) : StoresOk (faResetOp s) :=
  ⟨MemInv.of_eq h.1 rfl rfl rfl rfl rfl rfl rfl, faInv_of_reset rfl rfl⟩

theorem StoresOk.enqueued (h : StoresOk s) (d : Desc) (ht : s.queue.tail < s.cfg.qcap) : StoresOk (enqueued d s) :=
  ⟨MemInv.enqueued h.1 d ht, FaInv.of_eq h.2 rfl⟩

theorem StoresOk.dequeued (h : StoresOk s) : StoresOk (dequeued s) := ⟨MemInv.dequeued h.1, FaInv.of_eq h.2 rfl⟩

theorem StoresOk.writeImage (h : StoresOk s) : StoresOk (writeImageOp s) :=
  ⟨MemInv.writeImage h.1, FaInv.of_eq h.2 rfl⟩

theorem StoresOk.transferred (h : StoresOk s) (hin : ChunkInside s) : StoresOk (transferred s) :=
  ⟨MemInv.of_eq (MemInv.chunkFilled h.1 hin (rxBytes_length s _)) rfl rfl rfl rfl rfl rfl rfl, FaInv.of_eq h.2 rfl⟩

theorem StoresOk.transferLost (h : StoresOk s) (hin : ChunkInside s) : StoresOk (transferLost s) :=
  ⟨MemInv.of_eq (MemInv.chunkFilled h.1 hin (failedBytes_length s _)) rfl rfl rfl rfl rfl rfl rfl, FaInv.of_eq h.2 rfl⟩

theorem StoresOk.powerOn (h : StoresOk s) : StoresOk (powerOn s) := ⟨MemInv.powerOn h.1, faInv_of_reset rfl rfl⟩

theorem StoresOk.accept {n : BitVec 6} {pay : List Byte} {r : FaRes} {u : State} (h : StoresOk s)
    (hlen : pay.length = 160) (ha : AcceptStep n pay s (.ok (r, u))) : StoresOk u :=
  ⟨MemInv.accept h.1 ha, FaInv.accept h.2 hlen ha⟩

theorem ResultStep.storesOk {r : Option FaRes} (hr : ResultStep s r t) (h : StoresOk s) : StoresOk t := by
  cases hr with
  | kept => exact h
  | trapped _ c => exact (raiseResync_dataKept c s).storesOk h
  | completed => exact (endRetrieve_dataKept .ok true _).storesOk h.writeImage

theorem PacketStep.storesOk {n : BitVec 6} {pay : List Byte} (hp : PacketStep n pay s t) (hlen : pay.length = 160)
    (h : StoresOk s) : StoresOk t := by
  cases hp with
  | unaccepted hr => exact hr.storesOk h
  | accepted f ha hr => exact hr.storesOk ((h.accept hlen ha).of_eq rfl rfl rfl rfl rfl rfl)

theorem pktPay_length {pkt : List Byte} (h : pkt.length = 164) : (pktPay pkt).length = 160 := by
  rw [pktPay, List.length_drop, h]

theorem SplitStep.storesOk (hs : SplitStep s t) (h : StoresOk s) : StoresOk t := by
  cases hs with
  | ended | dropped | cancelled | waits => exact h.of_eq rfl rfl rfl rfl rfl rfl
  | sent _ _ _ _ _ ht => exact (h.enqueued _ ht).of_eq rfl rfl rfl rfl rfl rfl

theorem closeJoin_dataKept (s : State) :
    DataKept (fqFlushOp { request .close s with ctl.trOpen := false }) (closeJoin s) := by
  unfold closeJoin
  simp only
  split
  all_goals
    refine DataKept.trans ?_ (respond_dataKept _ _)
    exact ⟨rfl, rfl, rfl, rfl, rfl, rfl, rfl, rfl, rfl⟩

theorem AgentStep.storesOk (hs : AgentStep s t) (h : StoresOk s) : StoresOk t := by
  cases hs with
  | waits => exact h
  | rejected | openAccepted | closeAccepted | snapshotAccepted | chunkTaken | exited | reconnecting | stopped | fired |
      backoffEnded => exact h.of_eq rfl rfl rfl rfl rfl rfl
  | retrieveAccepted => exact h.faReset.of_eq rfl rfl rfl rfl rfl rfl
  | transferred _ hin => exact h.transferred hin
  | transferLost _ hin => exact h.transferLost hin
  | split _ hsplit => exact SplitStep.storesOk hsplit h
  | opened => exact (respond_dataKept _ _).storesOk (h.spStart.of_eq rfl rfl rfl rfl rfl rfl)
  | snapshotOpened => exact h.spStart.faReset.of_eq rfl rfl rfl rfl rfl rfl
  | connectFailed => exact (respond_dataKept _ _).storesOk (h.of_eq rfl rfl rfl rfl rfl rfl)
  | closed => exact (closeJoin_dataKept s).storesOk (h.fqFlush.of_eq rfl rfl rfl rfl rfl rfl)
  | resyncJoined => exact h.fqFlush.faReset.of_eq rfl rfl rfl rfl rfl rfl
  | resumed => exact h.spStart.of_eq rfl rfl rfl rfl rfl rfl
  | reopenFailed => exact (endRetrieve_dataKept _ _ _).storesOk (h.of_eq rfl rfl rfl rfl rfl rfl)
  | timedOut => exact (endRetrieve_dataKept _ _ _).storesOk (h.of_eq rfl rfl rfl rfl rfl rfl)
  | consumed _ _ _ hlen hp => exact hp.storesOk (pktPay_length hlen) (h.dequeued.of_eq rfl rfl rfl rfl rfl rfl)

theorem UnitStep.storesOk {i : Instr} (hs : UnitStep i s t)
    (hpay : ∀ n pay, dataPacket i = some (n, pay) ∨ i = .faAccept n pay → pay.length = 160) (h : StoresOk s) :
    StoresOk t := by
  cases hs with
  | waits => exact h
  | matched | dropped | cancelled => exact h.of_eq rfl rfl rfl rfl rfl rfl
  | result hr => exact hr.storesOk h
  | packetResult r hr => exact hr.storesOk (h.of_eq rfl rfl rfl rfl rfl rfl)
  | data hi hp => exact hp.storesOk (hpay _ _ (.inl hi)) h
  | packetData r hi hp => exact hp.storesOk (hpay _ _ (.inl hi)) (h.of_eq rfl rfl rfl rfl rfl rfl)
  | fares _ hr => exact hr.storesOk h
  | accepted hi f ha => exact (h.accept (hpay _ _ (.inr hi)) ha).of_eq rfl rfl rfl rfl rfl rfl
  | positionReset => exact h.faReset
  | imageWritten => exact h.writeImage
  | appended d _ _ ht => exact h.enqueued d ht
  | taken => exact h.dequeued
  | flushed => exact h.fqFlush
  | started => exact h.spStart

/-- A payload that some bytes encode has 160 bytes (R100). -/
theorem payload_length {mask pattern : Byte} {i : Instr} (hwf : wellFormed mask pattern i = true) (n : BitVec 6)
    (pay : List Byte) (h : dataPacket i = some (n, pay) ∨ i = .faAccept n pay) : pay.length = 160 := by
  suffices hpay : payOk pay = true by simpa [payOk] using hpay
  obtain h | rfl := h
  · cases i <;> cases h
    case inl.pvresSequenceNumber.refl => exact hwf
    all_goals
      simp only [wellFormed, Bool.and_eq_true] at hwf
      obtain ⟨-, hpay⟩ := hwf
      exact hpay
  · exact hwf

/-- What is fetched is well formed: it was decoded, or it is a step of a sequencer. -/
theorem fetch_wellFormed {l : Line} {i : Instr} (h : fetch s l = .run i) :
    wellFormed s.regs.padMask s.regs.padPattern i = true := by
  cases l with
  | code c =>
    unfold fetch at h
    simp only at h
    split at h
    · next hd =>
      cases h
      obtain ⟨-, hwf⟩ := encodeOfDecodeIsTheBytes _ _ _ _ hd
      exact hwf
    · cases h
  | producer =>
    unfold fetch producerOp at h
    cases hp : s.prod.pState <;> rw [hp] at h <;> cases h
    case producer.acq.refl => split <;> rfl
    all_goals rfl
  | consumer =>
    unfold fetch consumerOp at h
    cases hs : s.ctl.scState <;> rw [hs] at h <;> cases h
    case consumer.opConn.refl => split <;> rfl
    all_goals rfl
  | write w => cases h

theorem exec_storesOk {i : Instr} {mask pattern : Byte} (h : StoresOk s) (hwf : wellFormed mask pattern i = true)
    (hexec : exec i s = .next t) : StoresOk t := by
  by_cases hreset : i = .reset
  · subst hreset
    rw [exec_reset] at hexec
    cases hexec
    exact h.powerOn
  · cases hi : agentInstr i with
    | true => exact (exec_agentStep hi hreset hexec).storesOk h
    | false => exact (exec_unitStep hi hexec).storesOk (payload_length hwf) h

theorem hostWrite_storesOk {w : HostWrite} (h : StoresOk s) (hw : hostWrite w s = .ok t) : StoresOk t := by
  obtain ⟨rfl, -, -⟩ | ⟨-, ⟨v, -, rfl⟩ | ⟨v, -, rfl⟩ | ⟨ms, -, rfl⟩ | ⟨ms, -, rfl⟩⟩ | ⟨a, v, -, ha, rfl⟩ := hostWrite_ok hw
  case inr.inr =>
    obtain ⟨hm, hf⟩ := h
    exact ⟨{ hm with
      dest_wf := cellsSet_wf _ _ _ hm.dest_wf
      dest_below := cellsSet_below _ _ _ _ hm.dest_below ha }, FaInv.of_eq hf rfl⟩
  case inl => exact h
  all_goals exact h.of_eq rfl rfl rfl rfl rfl rfl

/-- Settles O47: the instructions keep the stores and FA by the rows of `AgentStep` and `UnitStep`, and so does a write of
the host. -/
theorem storesAndAssemblerKeepTheirForm : Obligations.StoresAndAssemblerKeepTheirForm := by
  unfold Obligations.StoresAndAssemblerKeepTheirForm
  intro s t hm hf h
  obtain ⟨hcfg, hfa, hring, hqueue, -, -, -, -, -, hdest, -⟩ := nextLine_rest s
  have hstart : StoresOk (nextLine s).2 := StoresOk.of_eq ⟨hm, hf⟩ hcfg hfa (by rw [hring]) (by rw [hring]) (by rw [hqueue]) hdest
  obtain ⟨i, hfetch, hexec⟩ | ⟨-, rfl⟩ | ⟨w, -, hwrite⟩ := step_next h
  · exact exec_storesOk hstart (fetch_wellFormed hfetch) hexec
  · exact hstart
  · exact hostWrite_storesOk hstart hwrite

end

end Sys2Proof.Laws
end

section
/-!
PROOF. O44, O45: the invariants of R45 along the block's own behaviour. The queue's, the producer's and the controller's
parts are each kept by the rows of `AgentStep`; the stores and FA are O47's.
-/

namespace Sys2Proof.Laws

open Sys2Proof.Machine Sys2Proof.Safety

/-! ### Lines of an agent-level schedule (R9, R10) -/

theorem agentInstr_decodePv (pkt : List Byte) : agentInstr (decodePv pkt) = false := by
  unfold decodePv
  simp only
  repeat' split
  all_goals rfl

theorem agentInstr_decodePacket (mask pattern : Byte) (pkt : List Byte) :
    agentInstr (decodePacket mask pattern pkt) = false := by
  unfold decodePacket
  split
  · rfl
  · exact agentInstr_decodePv pkt

/-- Only packets are decoded under the padding registers, and no packet is an agent's step (R109). -/
theorem decode_agent {mask pattern mask' pattern' : Byte} {c : Code} {i : Instr}
    (h : decode mask pattern c = .ok i) (hi : agentInstr i = true) : decode mask' pattern' c = .ok i := by
  obtain ⟨fmt, bytes⟩ := c
  cases fmt with
  | hdr16 =>
    change (if bytes.length = Config.pktBytes then Except.ok (decodePacket mask pattern bytes) else _) = _ at h
    split at h
    · cases h
      rw [agentInstr_decodePacket] at hi
      cases hi
    · cases h
  | cmd3 | op5 | pvres9 | fares4 | powerOn => exact h

theorem agentLine_code {c : Code} (h : agentLine (.code c) = true) (mask pattern : Byte) :
    ∃ i, decode mask pattern c = .ok i ∧ agentInstr i = true := by
  unfold agentLine at h
  simp only at h
  split at h
  · next i hd => exact ⟨i, decode_agent hd h, h⟩
  · cases h

theorem producerOp_agent {s : State} {i : Instr} (h : producerOp s = some i) : agentInstr i = true := by
  unfold producerOp at h
  split at h <;> cases h
  · split <;> rfl
  all_goals rfl

theorem consumerOp_agent {s : State} {i : Instr} (h : consumerOp s = some i) : agentInstr i = true := by
  unfold consumerOp at h
  split at h <;> cases h
  · split <;> rfl
  all_goals rfl

theorem fetchOp_run {o : Option Instr} {i : Instr} (h : fetchOp o = .run i) : o = some i := by
  cases o <;> cases h
  rfl

/-- What an agent's line runs is an agent's instruction. -/
theorem fetch_agent {s : State} {l : Line} {i : Instr} (hl : agentLine l = true) (h : fetch s l = .run i) :
    agentInstr i = true := by
  cases l with
  | code c =>
    obtain ⟨j, hd, hj⟩ := agentLine_code hl s.regs.padMask s.regs.padPattern
    simp only [fetch, hd] at h
    cases h
    exact hj
  | producer => exact producerOp_agent (fetchOp_run h)
  | consumer => exact consumerOp_agent (fetchOp_run h)
  | write w => cases h

theorem agentLine_choiceLine (c : AgentChoice) : agentLine (choiceLine c) = true := by
  cases c with
  | command code => fin_cases code <;> rfl
  | write | producer | consumer | fire | backoffEnd | powerOn => rfl

/-- A line drawn or scheduled is an agent's, and so are those that remain. -/
theorem nextLine_agent {s : State} (h : AgentSchedule s) :
    agentLine (nextLine s).1 = true ∧ AgentSchedule (nextLine s).2 := by
  unfold nextLine
  split
  · next l rest hs =>
    have hall : ∀ x ∈ l :: rest, agentLine x = true := hs ▸ h
    exact ⟨hall l (List.mem_cons_self ..), fun x hx => hall x (List.mem_cons_of_mem _ hx)⟩
  · exact ⟨agentLine_choiceLine _, h⟩

/-! ### The queue (R45 items 1, 2 and 7) -/

section
variable {s t : State}

theorem queued_congr (hcfg : t.cfg = s.cfg) (hqueue : t.queue = s.queue) (hepoch : t.env.epoch = s.env.epoch) :
    queued t = queued s := by
  simp only [queued, qGet, hcfg, hqueue, hepoch]

@[simp] theorem queued_length (s : State) : (queued s).length = s.queue.count := by simp [queued]

theorem queued_eq_nil (h : s.queue.count = 0) : queued s = [] := by simp [queued, h]

theorem qcap_pos (c : Params) : 0 < c.qcap := Nat.succ_pos _

theorem n_pos (c : Params) : 0 < c.n := Nat.succ_pos _

theorem QueueInv.of_eq (h : QueueInv s) (hcfg : t.cfg = s.cfg) (hqueue : t.queue = s.queue)
    (hepoch : t.env.epoch = s.env.epoch) (hrefcnt : t.ring.refcnt = s.ring.refcnt)
    (harena : ∀ a, written s .arena a = true → written t .arena a = true) : QueueInv t := by
  have hqs := queued_congr hcfg hqueue hepoch
  refine ⟨?_, ?_, ?_, fun c => ?_, ?_, fun d hd i hi => ?_, ?_⟩
  · rw [hqueue, hcfg]; exact h.count_le
  · rw [hqueue, hcfg]; exact h.head_lt
  · rw [hqueue, hcfg]; exact h.tail_eq
  · rw [hqs, refGet, hrefcnt]; exact h.refcnt_eq c
  · rw [hqs, hcfg]; exact h.desc_ok
  · rw [hcfg]; exact harena _ (h.desc_written d (hqs ▸ hd) i hi)
  · rw [hqs]; exact h.slots_rise

/-- An empty queue with its pointers at 0 (R195, R196). -/
theorem queueInv_empty (hhead : t.queue.head = 0) (htail : t.queue.tail = 0) (hcount : t.queue.count = 0)
    (hrefcnt : t.ring.refcnt = []) : QueueInv t := by
  have hq : queued t = [] := queued_eq_nil hcount
  refine ⟨by omega, by rw [hhead]; exact qcap_pos _, by simp [hhead, htail, hcount], fun c => ?_, ?_, ?_, ?_⟩
  · simp [refGet, hrefcnt, hq, cellGet]
  all_goals simp [hq]

theorem QueueInv.tail_lt (h : QueueInv s) : s.queue.tail < s.cfg.qcap := by
  rw [h.tail_eq]
  exact Nat.mod_lt _ (qcap_pos _)

theorem QueueInv.enqueued {d : Desc} (h : QueueInv s) (hq : s.queue.count < s.cfg.qcap) (hd : descOk s.cfg d = true)
    (hw : ∀ i, i < 164 → written s .arena (sliceAddr s.cfg d.chunk d.slot + i) = true)
    (hrise : ∀ e ∈ queued s, e.chunk = d.chunk → e.slot < d.slot) : QueueInv (Laws.enqueued d s) := by
  have hqs : queued (Laws.enqueued d s) = queued s ++ [d] := queued_enqueued d s hq h.tail_eq
  refine ⟨hq, h.head_lt, ?_, fun c => ?_, ?_, ?_, ?_⟩
  · change (s.queue.tail + 1) % s.cfg.qcap = (s.queue.head + (s.queue.count + 1)) % s.cfg.qcap
    rw [h.tail_eq, Nat.mod_add_mod, Nat.add_assoc]
  · rw [refGet_enqueued, hqs, List.countP_append, ← h.refcnt_eq c]
    by_cases hc : c = d.chunk
    · subst hc
      simp
    · simp [hc, Ne.symm hc]
  · rw [hqs]
    intro e he
    obtain he | rfl := by simpa using he
    · exact h.desc_ok e he
    · exact hd
  · rw [hqs]
    intro e he
    obtain he | rfl := by simpa using he
    · exact h.desc_written e he
    · exact hw
  · rw [hqs]
    refine List.pairwise_append.mpr ⟨h.slots_rise, List.pairwise_singleton _ _, fun e he e' he' hc => ?_⟩
    obtain rfl := List.mem_singleton.mp he'
    exact hrise e he hc

theorem QueueInv.dequeued (h : QueueInv s) (hq : 0 < s.queue.count) : QueueInv (Laws.dequeued s) := by
  have hqs : queued s = qGet s s.queue.head :: queued (Laws.dequeued s) := queued_dequeued s hq h.head_lt
  have hmem : ∀ e ∈ queued (Laws.dequeued s), e ∈ queued s := fun e he => by
    rw [hqs]
    exact List.mem_cons_of_mem _ he
  refine ⟨(Nat.sub_le _ _).trans h.count_le, Nat.mod_lt _ (qcap_pos _), ?_, fun c => ?_, ?_, ?_, ?_⟩
  · change s.queue.tail = ((s.queue.head + 1) % s.cfg.qcap + (s.queue.count - 1)) % s.cfg.qcap
    rw [Nat.mod_add_mod, h.tail_eq]
    congr 1
    omega
  · have hcount := h.refcnt_eq c
    rw [hqs, List.countP_cons] at hcount
    rw [refGet_dequeued]
    by_cases hc : c = (qGet s s.queue.head).chunk
    · subst hc
      simp only [beq_self_eq_true, if_true] at hcount ⊢
      omega
    · simp only [hc, if_false]
      simpa [Ne.symm hc] using hcount
  · exact fun e he => h.desc_ok e (hmem e he)
  · exact fun e he => h.desc_written e (hmem e he)
  · have hrise := h.slots_rise
    rw [hqs] at hrise
    exact (List.pairwise_cons.mp hrise).2

/-- A chunk that is not referenced holds no queued packet (R27, R190). -/
theorem QueueInv.chunk_ne (h : QueueInv s) {c : Nat} (hr : refGet s c = 0) : ∀ d ∈ queued s, d.chunk ≠ c := by
  intro d hd hc
  have hcount := (h.refcnt_eq c).symm.trans hr
  have hnone := List.countP_eq_zero.mp hcount d hd
  exact hnone (beq_iff_eq.mpr hc)

/-! ### The producer (R45 items 5, 6 and 8) -/

theorem written_chunkFilled (bs : List Byte) (s : State) (a : Nat)
    (h : (chunkAddr s.cfg s.prod.curChunk ≤ a ∧ a < chunkAddr s.cfg s.prod.curChunk + bs.length) ∨
      written s .arena a = true) : written (chunkFilled bs s) .arena a = true :=
  isSome_cellsSet _ _ _ _ h

/-- The queue and the producer, which share the slots of the chunk being split. -/
def PathInv (s : State) : Prop := QueueInv s ∧ ProdInv s

theorem running_iff (s : State) :
    running s = true ↔ s.prod.pState = .acq ∨ s.prod.pState = .xfer ∨ s.prod.pState = .split := by
  simp [running, or_assoc]

/-- The invariants of the path depend on RB, FQ, the producer's position and whether the transport is open. -/
theorem PathInv.of_eq (h : PathInv s) (hcfg : t.cfg = s.cfg) (hqueue : t.queue = s.queue)
    (hepoch : t.env.epoch = s.env.epoch) (hring : t.ring = s.ring) (hp : t.prod.pState = s.prod.pState)
    (hc : t.prod.curChunk = s.prod.curChunk) (hi : t.prod.splitIdx = s.prod.splitIdx)
    (hopen : running s = true → t.ctl.trOpen = true) : PathInv t := by
  obtain ⟨hq, hprod⟩ := h
  have hqs := queued_congr hcfg hqueue hepoch
  have hw : ∀ a, written t .arena a = written s .arena a := fun a => by simp only [written, cellsOf, hring]
  refine ⟨QueueInv.of_eq hq hcfg hqueue hepoch (by rw [hring]) fun a ha => (hw a).trans ha, ?_⟩
  refine ⟨?_, ?_, ?_, fun hx => ?_, fun hx => ?_, fun hx i hlt => ?_, fun hr => hopen ?_⟩
  · rw [hring, hcfg]; exact hprod.wrIdx_lt
  · rw [hc, hcfg]; exact hprod.curChunk_lt
  · rw [hi, hcfg]; exact hprod.splitIdx_le
  · rw [refGet, hring, hc]; exact hprod.xfer_free (hp ▸ hx)
  · rw [hqs, hc, hi]; exact hprod.split_slots (hp ▸ hx)
  · rw [hcfg, hc, hw]; exact hprod.split_written (hp ▸ hx) i (hcfg ▸ hlt)
  · rwa [running_iff, hp, ← running_iff] at hr

theorem PathInv.of_dataKept (h : PathInv s) (hk : DataKept s t) (hopen : running s = true → t.ctl.trOpen = true) :
    PathInv t :=
  PathInv.of_eq h hk.cfg hk.queue (by rw [hk.env]) hk.ring hk.pState hk.curChunk hk.splitIdx hopen

/-- A producer that has terminated is bound by its ranges only. -/
theorem PathInv.stopped (h : PathInv s) (hcfg : t.cfg = s.cfg) (hqueue : t.queue = s.queue)
    (hepoch : t.env.epoch = s.env.epoch) (hring : t.ring = s.ring) (hc : t.prod.curChunk = s.prod.curChunk)
    (hi : t.prod.splitIdx = s.prod.splitIdx) (hp : running t = false) : PathInv t := by
  obtain ⟨hq, hprod⟩ := h
  have hno : ¬ (t.prod.pState = .acq ∨ t.prod.pState = .xfer ∨ t.prod.pState = .split) := by
    rw [← running_iff, hp]
    exact Bool.false_ne_true
  refine ⟨QueueInv.of_eq hq hcfg hqueue hepoch (by rw [hring]) fun a ha => ?_, ?_⟩
  · simpa only [written, cellsOf, hring] using ha
  · refine ⟨?_, ?_, ?_, fun hx => absurd (.inr (.inl hx)) hno, fun hx => absurd (.inr (.inr hx)) hno,
      fun hx => absurd (.inr (.inr hx)) hno, fun hr => absurd ((running_iff t).mp hr) hno⟩
    · rw [hring, hcfg]; exact hprod.wrIdx_lt
    · rw [hc, hcfg]; exact hprod.curChunk_lt
    · rw [hi, hcfg]; exact hprod.splitIdx_le

theorem PathInv.takeChunk (h : PathInv s) (hp : s.prod.pState = .acq) (hr : refGet s s.ring.wrIdx = 0) :
    PathInv (takeChunk s) := by
  obtain ⟨hq, hprod⟩ := h
  refine ⟨QueueInv.of_eq hq rfl rfl rfl rfl fun _ ha => ha, ?_⟩
  exact {
    wrIdx_lt := Nat.mod_lt _ (n_pos _)
    curChunk_lt := hprod.wrIdx_lt
    splitIdx_le := hprod.splitIdx_le
    xfer_free := fun _ => hr
    split_slots := nofun
    split_written := nofun
    running_open := fun _ => hprod.running_open ((running_iff s).mpr (.inl hp)) }

/-- The chunk of a transfer holds no queued packet, so that all of its slots may be split (R190, R191). -/
theorem PathInv.transferred (h : PathInv s) (hp : s.prod.pState = .xfer) : PathInv (transferred s) := by
  obtain ⟨hq, hprod⟩ := h
  have hfree := QueueInv.chunk_ne hq (hprod.xfer_free hp)
  refine ⟨QueueInv.of_eq hq rfl rfl rfl rfl fun a ha => written_chunkFilled _ s a (.inr ha), ?_⟩
  exact {
    wrIdx_lt := hprod.wrIdx_lt
    curChunk_lt := hprod.curChunk_lt
    splitIdx_le := Nat.zero_le _
    xfer_free := nofun
    split_slots := fun _ d hd hc => absurd hc (hfree d hd)
    split_written := fun _ i hi =>
      written_chunkFilled _ s _ (.inl ⟨Nat.le_add_right _ _, by rw [rxBytes_length]; exact Nat.add_lt_add_left hi _⟩)
    running_open := fun _ => hprod.running_open ((running_iff s).mpr (.inr (.inl hp))) }

theorem PathInv.transferLost (h : PathInv s) : PathInv (transferLost s) := by
  obtain ⟨hq, hprod⟩ := h
  refine ⟨QueueInv.of_eq hq rfl rfl rfl rfl fun a ha => written_chunkFilled _ s a (.inr ha), ?_⟩
  exact {
    wrIdx_lt := hprod.wrIdx_lt
    curChunk_lt := hprod.curChunk_lt
    splitIdx_le := hprod.splitIdx_le
    xfer_free := nofun
    split_slots := nofun
    split_written := nofun
    running_open := nofun }

/-- A slice of the chunk being split lies in it. -/
theorem slice_in_chunk {c : Params} {chunk slot i : Nat} (hs : slot < c.p) (hi : i < 164) :
    sliceAddr c chunk slot + i = chunkAddr c chunk + (slot * 164 + i) ∧ slot * 164 + i < chunkBytes c := by
  have hmul : (slot + 1) * 164 ≤ c.p * 164 := Nat.mul_le_mul_right 164 hs
  simp only [sliceAddr, chunkBytes, Config.pktBytes]
  omega

theorem PathInv.split (h : PathInv s) (hp : s.prod.pState = .split) (hs : SplitStep s t) : PathInv t := by
  obtain ⟨hq, hprod⟩ := h
  have hopen := hprod.running_open ((running_iff s).mpr (.inr (.inr hp)))
  cases hs with
  | ended =>
    refine ⟨QueueInv.of_eq hq rfl rfl rfl rfl fun _ ha => ha, ?_⟩
    exact { hprod with xfer_free := nofun, split_slots := nofun, split_written := nofun, running_open := fun _ => hopen }
  | dropped hi =>
    refine ⟨QueueInv.of_eq hq rfl rfl rfl rfl fun _ ha => ha, ?_⟩
    exact { hprod with
      splitIdx_le := Nat.lt_of_le_of_ne hprod.splitIdx_le hi
      split_slots := fun hx d hd hc => Nat.lt_succ_of_lt (hprod.split_slots hx d hd hc) }
  | cancelled => exact PathInv.stopped ⟨hq, hprod⟩ rfl rfl rfl rfl rfl rfl rfl
  | sent hi _ _ hcount hd =>
    have hlt : s.prod.splitIdx < s.cfg.p := Nat.lt_of_le_of_ne hprod.splitIdx_le hi
    have henq : QueueInv (enqueued (curDesc s) s) := by
      refine QueueInv.enqueued hq hcount hd (fun i hi164 => ?_) (hprod.split_slots hp)
      obtain ⟨haddr, hin⟩ := slice_in_chunk (chunk := s.prod.curChunk) hlt hi164
      change written s .arena (sliceAddr s.cfg s.prod.curChunk s.prod.splitIdx + i) = true
      rw [haddr]
      exact hprod.split_written hp _ hin
    refine ⟨QueueInv.of_eq henq rfl rfl rfl rfl fun _ ha => ha, ?_⟩
    have hqs : queued (enqueued (curDesc s) s) = queued s ++ [curDesc s] := queued_enqueued _ s hcount hq.tail_eq
    exact { hprod with
      splitIdx_le := hlt
      xfer_free := fun hx => absurd (hp.symm.trans hx) (by decide)
      split_slots := fun _ d hd hc => by
        have hd' : d ∈ queued s ++ [curDesc s] := hqs ▸ hd
        obtain hd' | rfl := by simpa using hd'
        · exact Nat.lt_succ_of_lt (hprod.split_slots hp d hd' hc)
        · exact Nat.lt_succ_self _ }
  | waits => exact ⟨hq, hprod⟩

/-- SP.START and FQ.FLUSH leave the queue empty (R195, R196). -/
theorem PathInv.spStart (h : PathInv s) (ho : s.ctl.trOpen = true) : PathInv (spStartOp s) :=
  ⟨queueInv_empty rfl rfl rfl rfl,
    { wrIdx_lt := n_pos _
      curChunk_lt := h.2.curChunk_lt
      splitIdx_le := Nat.zero_le _
      xfer_free := nofun
      split_slots := nofun
      split_written := nofun
      running_open := fun _ => ho }⟩

theorem PathInv.fqFlush (h : PathInv s) : PathInv (fqFlushOp s) :=
  ⟨queueInv_empty rfl rfl rfl rfl,
    { wrIdx_lt := h.2.wrIdx_lt
      curChunk_lt := h.2.curChunk_lt
      splitIdx_le := h.2.splitIdx_le
      xfer_free := nofun
      split_slots := nofun
      split_written := nofun
      running_open := nofun }⟩

theorem PathInv.dequeued (h : PathInv s) (hq : 0 < s.queue.count) : PathInv (dequeued s) := by
  obtain ⟨hqueue, hprod⟩ := h
  have hdeq := QueueInv.dequeued hqueue hq
  have hqs : queued s = qGet s s.queue.head :: queued (Laws.dequeued s) := queued_dequeued s hq hqueue.head_lt
  refine ⟨hdeq, { hprod with
    xfer_free := fun hx => ?_
    split_slots := fun hx d hd => hprod.split_slots hx d (by rw [hqs]; exact List.mem_cons_of_mem _ hd) }⟩
  have hfree := QueueInv.chunk_ne hqueue (hprod.xfer_free hx)
  rw [hdeq.refcnt_eq]
  refine List.countP_eq_zero.mpr fun d hd hc => ?_
  exact hfree d (by rw [hqs]; exact List.mem_cons_of_mem _ hd) (beq_iff_eq.mp hc)

/-! ### The controller (R45 items 8 to 10) -/

theorem CtlInv.of_eq (h : CtlInv s) (hctl : t.ctl = s.ctl) (htim : t.tim = s.tim)
    (hcancel : t.prod.cancel = s.prod.cancel) (hp : t.prod.pState = s.prod.pState) : CtlInv t := by
  obtain ⟨hok, harmed, hback⟩ := h
  refine ⟨?_, ?_, ?_⟩
  · unfold ctlOk retrieving at hok ⊢
    rwa [hctl, hcancel, hp]
  · rw [htim, harmed, retrieving, retrieving, hctl]
  · rw [htim, hctl]; exact hback

/-- In the states with a running producer, what its own steps may do to `p_state` (R30, R32). -/
theorem CtlInv.producer (h : CtlInv s) (hctl : t.ctl = s.ctl) (htim : t.tim = s.tim)
    (hcancel : t.prod.cancel = s.prod.cancel) (hp : s.prod.pState ≠ .idle) (hp' : t.prod.pState ≠ .idle)
    (hdone : t.prod.pState = .doneCancel → s.prod.cancel = true) : CtlInv t := by
  obtain ⟨hok, harmed, hback⟩ := h
  refine ⟨?_, ?_, ?_⟩
  · unfold ctlOk retrieving at hok ⊢
    rw [hctl, hcancel]
    cases hs : s.ctl.scState <;> rw [hs] at hok <;> simp only at hok ⊢
    case closed | opConn | rsBackoff | rsConn => exact absurd hok.2.2 hp
    case opened | retr =>
      obtain ⟨hcmd, hopen, hc, -⟩ := hok
      exact ⟨hcmd, hopen, hc, hp', fun e => by simp [hc] at hdone; exact hdone e⟩
    case rsJoin | clJoin =>
      obtain ⟨hcmd, hopen, hc, -⟩ := hok
      exact ⟨hcmd, hopen, hc, hp'⟩
  · rw [htim, harmed, retrieving, retrieving, hctl]
  · rw [htim, hctl]; exact hback

theorem CtlInv.not_backoff (h : CtlInv s) (hs : s.ctl.scState ≠ .rsBackoff) : s.tim.boRunning = false :=
  Bool.eq_false_iff.mpr fun hb => hs (h.backoff_state hb)

/-- The facts of each state of the controller. -/
theorem ctlOk_closed (h : ctlOk s) (hs : s.ctl.scState = .closed) :
    s.ctl.cmd = .none ∧ s.ctl.trOpen = false ∧ s.prod.pState = .idle := by
  rwa [ctlOk, hs] at h

theorem ctlOk_opConn (h : ctlOk s) (hs : s.ctl.scState = .opConn) :
    (s.ctl.cmd = .opening ∨ (s.ctl.cmd = .snapshot ∧ s.ctl.snapPhase = .opening)) ∧ s.ctl.trOpen = false ∧
      s.prod.pState = .idle := by
  rwa [ctlOk, hs] at h

theorem ctlOk_opened (h : ctlOk s) (hs : s.ctl.scState = .opened) :
    s.ctl.cmd = .none ∧ s.ctl.trOpen = true ∧ s.prod.cancel = false ∧ s.prod.pState ≠ .idle ∧
      s.prod.pState ≠ .doneCancel := by
  rwa [ctlOk, hs] at h

theorem ctlOk_retr (h : ctlOk s) (hs : s.ctl.scState = .retr) :
    retrieving s = true ∧ s.ctl.trOpen = true ∧ s.prod.cancel = false ∧ s.prod.pState ≠ .idle ∧
      s.prod.pState ≠ .doneCancel := by
  rwa [ctlOk, hs] at h

theorem ctlOk_rsJoin (h : ctlOk s) (hs : s.ctl.scState = .rsJoin) :
    retrieving s = true ∧ s.ctl.trOpen = true ∧ s.prod.cancel = true ∧ s.prod.pState ≠ .idle := by
  rwa [ctlOk, hs] at h

theorem ctlOk_rsBackoff (h : ctlOk s) (hs : s.ctl.scState = .rsBackoff) :
    retrieving s = true ∧ s.ctl.trOpen = false ∧ s.prod.pState = .idle := by
  rwa [ctlOk, hs] at h

theorem ctlOk_rsConn (h : ctlOk s) (hs : s.ctl.scState = .rsConn) :
    retrieving s = true ∧ s.ctl.trOpen = false ∧ s.prod.pState = .idle := by
  rwa [ctlOk, hs] at h

theorem ctlOk_clJoin (h : ctlOk s) (hs : s.ctl.scState = .clJoin) :
    (s.ctl.cmd = .closing ∨ (s.ctl.cmd = .snapshot ∧ s.ctl.snapPhase = .closing)) ∧ s.ctl.trOpen = true ∧
      s.prod.cancel = true ∧ s.prod.pState ≠ .idle := by
  rwa [ctlOk, hs] at h

theorem retrieving_iff (s : State) :
    retrieving s = true ↔ s.ctl.cmd = .retrieveFrame ∨ (s.ctl.cmd = .snapshot ∧ s.ctl.snapPhase = .retr) := by
  simp [retrieving]

end

end Sys2Proof.Laws
end

section
/-!
PROOF. O44, O45: the controller's part of the invariants, and the step lemma.
-/

namespace Sys2Proof.Laws

open Sys2Proof.Machine Sys2Proof.Safety

section
variable {s t : State}

/-! ### The controller's steps (R32, R45 items 8 to 10) -/

theorem CtlInv.armed_false (h : CtlInv s) (hr : retrieving s = false) : s.tim.dlArmed = false := h.armed_iff.trans hr

theorem retrieving_of_cmd (h : s.ctl.cmd = .none ∨ s.ctl.cmd = .opening ∨ s.ctl.cmd = .closing) :
    retrieving s = false := by
  obtain h | h | h := h <;> simp [retrieving, h]

/-- No command and none of its timers: what every answer in `S_CLOSED` leaves. -/
theorem ctlInv_closed (hs : t.ctl.scState = .closed) (hc : t.ctl.cmd = .none) (ho : t.ctl.trOpen = false)
    (hp : t.prod.pState = .idle) (ha : t.tim.dlArmed = false) (hb : t.tim.boRunning = false) : CtlInv t := by
  refine ⟨?_, ?_, ?_⟩
  · rw [ctlOk, hs]
    exact ⟨hc, ho, hp⟩
  · rw [ha, retrieving_of_cmd (.inl hc)]
  · simp [hb]

theorem emitCmd_keeps (st : Status) (s : State) :
    (emitCmd st s).ctl = s.ctl ∧ (emitCmd st s).tim = s.tim ∧ (emitCmd st s).prod = s.prod ∧
      (emitCmd st s).stat = s.stat ∧ (emitCmd st s).regs = s.regs ∧ (emitCmd st s).out.requests = s.out.requests := by
  unfold emitCmd
  split <;> simp

@[simp] theorem respond_ctl (st : Status) (s : State) : (respond st s).ctl = { s.ctl with cmd := .none } := by
  obtain ⟨hctl, -⟩ := emitCmd_keeps st { s with stat.status := st }
  change { (emitCmd st { s with stat.status := st }).ctl with cmd := .none } = _
  rw [hctl]

@[simp] theorem respond_tim (st : Status) (s : State) : (respond st s).tim = s.tim := by
  obtain ⟨-, htim, -⟩ := emitCmd_keeps st { s with stat.status := st }
  exact htim

@[simp] theorem respond_prod (st : Status) (s : State) : (respond st s).prod = s.prod := by
  obtain ⟨-, -, hprod, -⟩ := emitCmd_keeps st { s with stat.status := st }
  exact hprod

@[simp] theorem respond_stat (st : Status) (s : State) : (respond st s).stat = { s.stat with status := st } := by
  obtain ⟨-, -, -, hstat, -⟩ := emitCmd_keeps st { s with stat.status := st }
  exact hstat

@[simp] theorem respond_requests (st : Status) (s : State) : (respond st s).out.requests = s.out.requests := by
  obtain ⟨-, -, -, -, -, hreq⟩ := emitCmd_keeps st { s with stat.status := st }
  exact hreq

/-- The end of a RETRIEVE_FRAME, as fields (R233). -/
theorem endRetrieve_frame (st : Status) (isOpen : Bool) (h : s.ctl.cmd = .retrieveFrame) :
    endRetrieve st isOpen s =
      respond st { s with tim.dlArmed := false, ctl.scState := if isOpen then .opened else .closed } :=
  if_pos h

/-- The end of a SNAPSHOT's retrieving part with the session closed (R236). -/
theorem endRetrieve_closed_snapshot (st : Status) (h : s.ctl.cmd ≠ .retrieveFrame) :
    endRetrieve st false s =
      respond st { s with tim.dlArmed := false, ctl.snapStatus := st, ctl.scState := .closed } := by
  simp [endRetrieve, h]

/-- A retrieval ends with the session open (R233). -/
theorem CtlInv.endOpen (h : CtlInv s) (hs : s.ctl.scState = .retr) (st : Status) :
    CtlInv (endRetrieve st true s) := by
  obtain ⟨hr, ho, hc, hidle, hdone⟩ := ctlOk_retr h.state_ok hs
  have hb := CtlInv.not_backoff h (by rw [hs]; decide)
  by_cases hcmd : s.ctl.cmd = .retrieveFrame
  · rw [endRetrieve_frame st true hcmd]
    refine ⟨?_, ?_, ?_⟩
    · simp only [ctlOk, respond_ctl, respond_prod]
      exact ⟨trivial, ho, hc, hidle, hdone⟩
    · rw [respond_tim, retrieving_of_cmd (.inl (by rw [respond_ctl]))]
    · rw [respond_tim]
      simp [hb]
  · rw [endRetrieve_snapshot_open st s hcmd]
    obtain ⟨hsnap, -⟩ := ((retrieving_iff s).mp hr).resolve_left hcmd
    refine ⟨⟨.inr ⟨hsnap, rfl⟩, ho, rfl, hidle⟩, ?_, ?_⟩
    · simp [retrieving, hsnap]
    · simp [hb]

/-- A failed reconnect ends the command in `S_CLOSED` (R235). -/
theorem CtlInv.endClosed (h : CtlInv s) (hs : s.ctl.scState = .rsConn) (st : Status) :
    CtlInv (endRetrieve st false s) := by
  obtain ⟨-, ho, hidle⟩ := ctlOk_rsConn h.state_ok hs
  have hb := CtlInv.not_backoff h (by rw [hs]; decide)
  by_cases hcmd : s.ctl.cmd = .retrieveFrame
  · rw [endRetrieve_frame st false hcmd]
    exact ctlInv_closed (by simp) (by simp) (by simpa) (by simpa) (by simp) (by simpa)
  · rw [endRetrieve_closed_snapshot st hcmd]
    exact ctlInv_closed (by simp) (by simp) (by simpa) (by simpa) (by simp) (by simpa)

/-- The entry of a resynchronisation (R235). -/
theorem CtlInv.trap (h : CtlInv s) (hs : s.ctl.scState = .retr) (c : Cause) : CtlInv (raiseResync c s) := by
  obtain ⟨hr, ho, -, hidle, -⟩ := ctlOk_retr h.state_ok hs
  have hb := CtlInv.not_backoff h (by rw [hs]; decide)
  exact ⟨⟨hr, ho, rfl, hidle⟩, h.armed_iff, fun e => absurd (hb.symm.trans e) Bool.false_ne_true⟩

theorem ResultStep.ctlInv {r : Option FaRes} (hr : ResultStep s r t) (h : CtlInv s) : CtlInv t := by
  cases hr with
  | kept => exact h
  | trapped _ c _ hs => exact CtlInv.trap h hs c
  | completed hs =>
    exact CtlInv.endOpen (s := writeImageOp s) (CtlInv.of_eq h rfl rfl rfl rfl) hs .ok

theorem PacketStep.ctlInv {n : BitVec 6} {pay : List Byte} (hp : PacketStep n pay s t) (h : CtlInv s) : CtlInv t := by
  cases hp with
  | unaccepted hr => exact hr.ctlInv h
  | accepted f _ hr => exact hr.ctlInv (CtlInv.of_eq h rfl rfl rfl rfl)

theorem SplitStep.ctlInv (hs : SplitStep s t) (hp : s.prod.pState = .split) (h : CtlInv s) : CtlInv t := by
  have hidle : s.prod.pState ≠ .idle := by rw [hp]; decide
  cases hs with
  | ended => exact CtlInv.producer h rfl rfl rfl hidle (by simp) nofun
  | dropped | sent => exact CtlInv.of_eq h rfl rfl rfl rfl
  | cancelled _ _ hc => exact CtlInv.producer h rfl rfl rfl hidle (by simp) fun _ => hc
  | waits => exact h

theorem AgentStep.ctlInv (hstep : AgentStep s t) (h : CtlInv s) : CtlInv t := by
  cases hstep with
  | waits => exact h
  | rejected => exact CtlInv.of_eq h rfl rfl rfl rfl
  | openAccepted hc hs =>
    obtain ⟨-, ho, hidle⟩ := ctlOk_closed h.state_ok hs
    have hb := CtlInv.not_backoff h (by rw [hs]; decide)
    have ha := CtlInv.armed_false h (retrieving_of_cmd (.inl hc))
    exact ⟨⟨.inl rfl, ho, hidle⟩, ha, fun e => absurd (hb.symm.trans e) Bool.false_ne_true⟩
  | closeAccepted hc hs =>
    obtain ⟨-, ho, -, hidle, -⟩ := ctlOk_opened h.state_ok hs
    have hb := CtlInv.not_backoff h (by rw [hs]; decide)
    have ha := CtlInv.armed_false h (retrieving_of_cmd (.inl hc))
    exact ⟨⟨.inl rfl, ho, rfl, hidle⟩, ha, fun e => absurd (hb.symm.trans e) Bool.false_ne_true⟩
  | retrieveAccepted hc hs =>
    obtain ⟨-, ho, hcancel, hidle, hdone⟩ := ctlOk_opened h.state_ok hs
    have hb := CtlInv.not_backoff h (by rw [hs]; decide)
    exact ⟨⟨rfl, ho, hcancel, hidle, hdone⟩, rfl, fun e => absurd (hb.symm.trans e) Bool.false_ne_true⟩
  | snapshotAccepted hc hs =>
    obtain ⟨-, ho, hidle⟩ := ctlOk_closed h.state_ok hs
    have hb := CtlInv.not_backoff h (by rw [hs]; decide)
    have ha := CtlInv.armed_false h (retrieving_of_cmd (.inl hc))
    exact ⟨⟨.inr ⟨rfl, rfl⟩, ho, hidle⟩, ha, fun e => absurd (hb.symm.trans e) Bool.false_ne_true⟩
  | chunkTaken hp => exact CtlInv.producer h rfl rfl rfl (by rw [hp]; decide) nofun nofun
  | transferred hp => exact CtlInv.producer h rfl rfl rfl (by rw [hp]; decide) nofun nofun
  | transferLost hp => exact CtlInv.producer h rfl rfl rfl (by rw [hp]; decide) nofun nofun
  | split hp hsplit => exact SplitStep.ctlInv hsplit hp h
  | exited hp hc => exact CtlInv.producer h rfl rfl rfl (by rw [hp]; decide) nofun fun _ => hc
  | opened hs hc =>
    have hb := CtlInv.not_backoff h (by rw [hs]; decide)
    have ha := CtlInv.armed_false h (retrieving_of_cmd (.inr (.inl hc)))
    refine ⟨?_, ?_, ?_⟩
    · simp only [ctlOk, respond_ctl, respond_prod]
      exact ⟨trivial, rfl, rfl, nofun, nofun⟩
    · rw [respond_tim, retrieving_of_cmd (.inl (by rw [respond_ctl]))]
      exact ha
    · rw [respond_tim]
      exact fun e => absurd (hb.symm.trans e) Bool.false_ne_true
  | snapshotOpened hs hc =>
    have hb := CtlInv.not_backoff h (by rw [hs]; decide)
    have hr : retrieving (enterRetrieve { sessionStarted s with ctl.snapPhase := .retr }) = true :=
      (retrieving_iff _).mpr (.inr ⟨hc, rfl⟩)
    exact ⟨⟨hr, rfl, rfl, nofun, nofun⟩, hr.symm, fun e => absurd (hb.symm.trans e) Bool.false_ne_true⟩
  | connectFailed hs hc =>
    obtain ⟨hcmd, ho, hidle⟩ := ctlOk_opConn h.state_ok hs
    have hb := CtlInv.not_backoff h (by rw [hs]; decide)
    have hr : retrieving s = false := by
      obtain hcmd | ⟨hcmd, hph⟩ := hcmd
      · exact retrieving_of_cmd (.inr (.inl hcmd))
      · simp [retrieving, hcmd, hph]
    have ha := CtlInv.armed_false h hr
    exact ctlInv_closed (by simp) (by simp) (by simpa) (by simpa) (by simpa) (by simpa)
  | closed hs =>
    obtain ⟨hcmd, -, -, -⟩ := ctlOk_clJoin h.state_ok hs
    have hb := CtlInv.not_backoff h (by rw [hs]; decide)
    have hr : retrieving s = false := by
      obtain hcmd | ⟨hcmd, hph⟩ := hcmd
      · exact retrieving_of_cmd (.inr (.inr hcmd))
      · simp [retrieving, hcmd, hph]
    have ha := CtlInv.armed_false h hr
    unfold closeJoin
    simp only
    split
    all_goals exact ctlInv_closed (by simp) (by simp) (by simp) (by simp) (by simpa) (by simpa)
  | resyncJoined hs =>
    obtain ⟨hr, -, -, -⟩ := ctlOk_rsJoin h.state_ok hs
    exact ⟨⟨hr, rfl, rfl⟩, h.armed_iff, fun _ => rfl⟩
  | reconnecting hs hb =>
    obtain ⟨hr, ho, hidle⟩ := ctlOk_rsBackoff h.state_ok hs
    exact ⟨⟨hr, ho, hidle⟩, h.armed_iff, fun e => absurd (hb.symm.trans e) Bool.false_ne_true⟩
  | resumed hs =>
    obtain ⟨hr, -, -⟩ := ctlOk_rsConn h.state_ok hs
    have hb := CtlInv.not_backoff h (by rw [hs]; decide)
    exact ⟨⟨hr, rfl, rfl, nofun, nofun⟩, h.armed_iff, fun e => absurd (hb.symm.trans e) Bool.false_ne_true⟩
  | reopenFailed hs =>
    exact CtlInv.endClosed (s := emit (.resyncEnd false) (drawn s)) (CtlInv.of_eq h rfl rfl rfl rfl) hs .errReopen
  | timedOut hs =>
    exact CtlInv.endOpen (s := emit (.consume .timeout) s) (CtlInv.of_eq h rfl rfl rfl rfl) hs .errTimeout
  | stopped hs =>
    exact CtlInv.trap (s := emit (.consume .pipelineStopped) s) (CtlInv.of_eq h rfl rfl rfl rfl) hs .pipelineStopped
  | consumed _ _ _ _ hp => exact hp.ctlInv (CtlInv.of_eq h rfl rfl rfl rfl)
  | fired => exact ⟨h.state_ok, h.armed_iff, h.backoff_state⟩
  | backoffEnded => exact ⟨h.state_ok, h.armed_iff, nofun⟩

/-! ### The queue and the producer under every step -/

/-- Ending a retrieval leaves the transport as it is. -/
theorem endRetrieve_trOpen (st : Status) (isOpen : Bool) (s : State) :
    (endRetrieve st isOpen s).ctl.trOpen = s.ctl.trOpen := by
  unfold endRetrieve
  simp only
  split
  · rw [respond_ctl]
  · split
    · rfl
    · rw [respond_ctl]

theorem ResultStep.pathInv {r : Option FaRes} (hr : ResultStep s r t) (h : PathInv s) : PathInv t := by
  cases hr with
  | kept => exact h
  | trapped _ c => exact PathInv.of_dataKept h (raiseResync_dataKept c s) h.2.running_open
  | completed =>
    have hw : PathInv (writeImageOp s) := PathInv.of_eq h rfl rfl rfl rfl rfl rfl rfl h.2.running_open
    exact PathInv.of_dataKept hw (endRetrieve_dataKept .ok true _) (by rw [endRetrieve_trOpen]; exact hw.2.running_open)

theorem PacketStep.pathInv {n : BitVec 6} {pay : List Byte} (hp : PacketStep n pay s t) (h : PathInv s) :
    PathInv t := by
  cases hp with
  | unaccepted hr => exact hr.pathInv h
  | accepted f _ hr => exact hr.pathInv (PathInv.of_eq h rfl rfl rfl rfl rfl rfl rfl h.2.running_open)

/-- In the states without a running producer the transport may be closed. -/
theorem not_running_of_idle (hp : s.prod.pState = .idle) : ¬ running s = true := by
  rw [running_iff, hp]
  decide

theorem AgentStep.pathInv (hstep : AgentStep s t) (h : PathInv s) : PathInv t := by
  have hopen := h.2.running_open
  cases hstep with
  | waits => exact h
  | rejected | openAccepted | closeAccepted | retrieveAccepted | snapshotAccepted | reconnecting | stopped | fired |
      backoffEnded => exact PathInv.of_eq h rfl rfl rfl rfl rfl rfl rfl hopen
  | chunkTaken hp _ hr => exact PathInv.takeChunk h hp hr
  | transferred hp => exact PathInv.transferred h hp
  | transferLost => exact PathInv.transferLost h
  | split hp hsplit => exact PathInv.split h hp hsplit
  | exited => exact PathInv.stopped h rfl rfl rfl rfl rfl rfl rfl
  | opened hs =>
    have hstart : PathInv (sessionStarted s) :=
      PathInv.spStart (PathInv.of_eq h rfl rfl rfl rfl rfl rfl rfl fun _ => rfl) rfl
    have hst : PathInv { sessionStarted s with ctl.scState := .opened } :=
      PathInv.of_eq hstart rfl rfl rfl rfl rfl rfl rfl fun _ => rfl
    exact PathInv.of_dataKept hst (respond_dataKept _ _) fun _ => by rw [respond_ctl]; rfl
  | snapshotOpened =>
    have hstart : PathInv (sessionStarted s) :=
      PathInv.spStart (PathInv.of_eq h rfl rfl rfl rfl rfl rfl rfl fun _ => rfl) rfl
    exact PathInv.of_eq hstart rfl rfl rfl rfl rfl rfl rfl fun _ => rfl
  | connectFailed =>
    have hd : PathInv { drawn s with ctl.scState := .closed } := PathInv.of_eq h rfl rfl rfl rfl rfl rfl rfl hopen
    exact PathInv.of_dataKept hd (respond_dataKept _ _) fun hr => by rw [respond_ctl]; exact hd.2.running_open hr
  | closed =>
    have hshut : PathInv (fqFlushOp { request .close s with ctl.trOpen := false }) :=
      PathInv.of_eq (PathInv.fqFlush h) rfl rfl rfl rfl rfl rfl rfl nofun
    exact PathInv.of_dataKept hshut (closeJoin_dataKept s) nofun
  | resyncJoined => exact PathInv.of_eq (PathInv.fqFlush h) rfl rfl rfl rfl rfl rfl rfl nofun
  | resumed hs =>
    have hstart : PathInv (sessionStarted s) :=
      PathInv.spStart (PathInv.of_eq h rfl rfl rfl rfl rfl rfl rfl fun _ => rfl) rfl
    exact PathInv.of_eq hstart rfl rfl rfl rfl rfl rfl rfl fun _ => rfl
  | reopenFailed =>
    have hd : PathInv (emit (.resyncEnd false) (drawn s)) := PathInv.of_eq h rfl rfl rfl rfl rfl rfl rfl hopen
    exact PathInv.of_dataKept hd (endRetrieve_dataKept _ _ _) fun hr => by
      rw [resyncFailed, endRetrieve_trOpen]; exact hd.2.running_open hr
  | timedOut =>
    have hd : PathInv (emit (.consume .timeout) s) := PathInv.of_eq h rfl rfl rfl rfl rfl rfl rfl hopen
    exact PathInv.of_dataKept hd (endRetrieve_dataKept _ _ _) fun hr => by
      rw [endRetrieve_trOpen]; exact hd.2.running_open hr
  | consumed _ hq _ _ hp =>
    have hd := PathInv.dequeued (s := emit (.consume .packet) s) (PathInv.of_eq h rfl rfl rfl rfl rfl rfl rfl hopen) hq
    exact hp.pathInv (PathInv.of_eq hd rfl rfl rfl rfl rfl rfl rfl hd.2.running_open)

/-! ### The whole invariant (R45) -/

/-- Every agent's step leaves the rest of the schedule as it is. -/
theorem ResultStep.env {r : Option FaRes} (hr : ResultStep s r t) : t.env = s.env := by
  cases hr with
  | kept => rfl
  | trapped => rfl
  | completed => rw [(endRetrieve_dataKept .ok true _).env, writeImageOp_env]

theorem PacketStep.env {n : BitVec 6} {pay : List Byte} (hp : PacketStep n pay s t) : t.env = s.env := by
  cases hp with
  | unaccepted hr => exact hr.env
  | accepted f _ hr => exact hr.env

theorem SplitStep.env (hs : SplitStep s t) : t.env = s.env := by
  cases hs with
  | ended | dropped | cancelled | sent | waits => rfl

theorem AgentStep.sched (hstep : AgentStep s t) : t.env.sched = s.env.sched := by
  cases hstep with
  | waits | rejected | openAccepted | closeAccepted | retrieveAccepted | snapshotAccepted | chunkTaken | transferred |
      transferLost | exited | snapshotOpened | resyncJoined | reconnecting | resumed | stopped | fired | backoffEnded => rfl
  | split _ hsplit => rw [hsplit.env]
  | opened => rw [(respond_dataKept _ _).env]; rfl
  | connectFailed => rw [(respond_dataKept _ _).env]; rfl
  | closed => rw [(closeJoin_dataKept s).env]; rfl
  | reopenFailed => rw [resyncFailed, (endRetrieve_dataKept _ _ _).env]; rfl
  | timedOut => rw [(endRetrieve_dataKept _ _ _).env]; rfl
  | consumed _ _ _ _ hp => rw [hp.env]; rfl

theorem AgentStep.inv (hstep : AgentStep s t) (h : Inv s) : Inv t := by
  obtain ⟨hmem, hfa, hqueue, hprod, hctl, hsched⟩ := h
  obtain ⟨hmem', hfa'⟩ := hstep.storesOk ⟨hmem, hfa⟩
  obtain ⟨hqueue', hprod'⟩ := hstep.pathInv ⟨hqueue, hprod⟩
  exact ⟨hmem', hfa', hqueue', hprod', hstep.ctlInv hctl, by rw [AgentSchedule, hstep.sched]; exact hsched⟩

/-- The registers at their reset values have the invariants, whatever DEST holds (R44). -/
theorem inv_of_resetValues (hmem : MemInv t) (hfa : t.fa = Fa.reset) (hring : t.ring = Ring.reset)
    (hqueue : t.queue = Queue.reset) (hprod : t.prod = Prod.reset) (hctl : t.ctl = Ctl.reset) (htim : t.tim = Tim.reset)
    (hsched : AgentSchedule t) : Inv t where
  mem := hmem
  fa := faInv_of_reset (by rw [hfa]; rfl) (by rw [hfa]; rfl)
  queue := queueInv_empty (by rw [hqueue]; rfl) (by rw [hqueue]; rfl) (by rw [hqueue]; rfl) (by rw [hring]; rfl)
  prod := {
    wrIdx_lt := by rw [hring]; exact n_pos _
    curChunk_lt := by rw [hprod]; exact n_pos _
    splitIdx_le := by rw [hprod]; exact Nat.zero_le _
    xfer_free := by rw [hprod]; nofun
    split_slots := by rw [hprod]; nofun
    split_written := by rw [hprod]; nofun
    running_open := by rw [running, hprod]; nofun }
  ctl := ctlInv_closed (by rw [hctl]; rfl) (by rw [hctl]; rfl) (by rw [hctl]; rfl) (by rw [hprod]; rfl)
    (by rw [htim]; rfl) (by rw [htim]; rfl)
  sched := hsched

theorem Inv.powerOn (h : Inv s) : Inv (powerOn s) :=
  inv_of_resetValues (MemInv.powerOn h.mem) rfl rfl rfl rfl rfl rfl h.sched

theorem resetOf_memInv (c : Params) : MemInv (State.resetOf c) := by
  refine ⟨.nil, .nil, .nil, .nil, .nil, .nil, ?_, ?_, ?_, ?_, ?_, ?_⟩ <;>
    simp [Below, Ring.reset, Fa.reset, Queue.reset]

/-- Settles O44: the registers after reset are those of R44's table. -/
theorem invariantsHoldAtReset : Obligations.InvariantsHoldAtReset := by
  unfold Obligations.InvariantsHoldAtReset
  have hall : ∀ c : Params, Inv (State.resetOf c) := fun c =>
    inv_of_resetValues (resetOf_memInv c) rfl rfl rfl rfl rfl rfl nofun
  exact ⟨hall Config.build, hall⟩

/-- The invariants depend on no input of the model but the schedule. -/
theorem Inv.nextLine (h : Inv s) : Inv (nextLine s).2 := by
  obtain ⟨hcfg, hfa, hring, hqueue, hprod, hctl, htim, -, -, hdest, -, -, hepoch⟩ := nextLine_rest s
  obtain ⟨-, hsched⟩ := nextLine_agent h.sched
  obtain ⟨hmem', hfa'⟩ := StoresOk.of_eq ⟨h.mem, h.fa⟩ hcfg hfa (by rw [hring]) (by rw [hring]) (by rw [hqueue]) hdest
  obtain ⟨hqueue', hprod'⟩ := PathInv.of_eq ⟨h.queue, h.prod⟩ hcfg hqueue hepoch hring (by rw [hprod]) (by rw [hprod])
    (by rw [hprod]) (by rw [hctl]; exact h.prod.running_open)
  exact ⟨hmem', hfa', hqueue', hprod', CtlInv.of_eq h.ctl hctl htim (by rw [hprod]) (by rw [hprod]), hsched⟩

/-- A write of the host reaches the registers and DEST only (R43). -/
theorem hostWrite_keeps {w : HostWrite} (hw : hostWrite w s = .ok t) :
    t.cfg = s.cfg ∧ t.ring = s.ring ∧ t.queue = s.queue ∧ t.prod = s.prod ∧ t.ctl = s.ctl ∧ t.tim = s.tim ∧
      t.env = s.env ∧ t.out = s.out := by
  obtain ⟨rfl, -, -⟩ | ⟨-, ⟨v, -, rfl⟩ | ⟨v, -, rfl⟩ | ⟨ms, -, rfl⟩ | ⟨ms, -, rfl⟩⟩ | ⟨a, v, -, -, rfl⟩ := hostWrite_ok hw
  all_goals exact ⟨rfl, rfl, rfl, rfl, rfl, rfl, rfl, rfl⟩

theorem hostWrite_inv {w : HostWrite} (h : Inv s) (hw : hostWrite w s = .ok t) : Inv t := by
  obtain ⟨hmem, hfa⟩ := hostWrite_storesOk ⟨h.mem, h.fa⟩ hw
  obtain ⟨hcfg, hring, hqueue, hprod, hctl, htim, henv, -⟩ := hostWrite_keeps hw
  obtain ⟨hqueue', hprod'⟩ := PathInv.of_eq ⟨h.queue, h.prod⟩ hcfg hqueue (by rw [henv]) hring (by rw [hprod])
    (by rw [hprod]) (by rw [hprod]) (by rw [hctl]; exact h.prod.running_open)
  exact ⟨hmem, hfa, hqueue', hprod', CtlInv.of_eq h.ctl hctl htim (by rw [hprod]) (by rw [hprod]),
    by rw [AgentSchedule, henv]; exact h.sched⟩

/-- What a step of an agent does, by what its line runs (R10). -/
inductive BlockStep (s : State) : State → Prop
  | agent {t : State} (h : AgentStep s t) : BlockStep s t
  | reset : BlockStep s (powerOn s)
  | write {t : State} (w : HostWrite) (h : hostWrite w s = .ok t) : BlockStep s t

theorem step_block (hsched : AgentSchedule s) (h : step s = .next t) : BlockStep (nextLine s).2 t := by
  obtain ⟨i, hf, hexec⟩ | ⟨-, rfl⟩ | ⟨w, -, hw⟩ := step_next h
  · have hi := fetch_agent (nextLine_agent hsched).1 hf
    by_cases hreset : i = .reset
    · subst hreset
      rw [exec_reset] at hexec
      cases hexec
      exact .reset
    · exact .agent (exec_agentStep hi hreset hexec)
  · exact .agent .waits
  · exact .write w hw

theorem BlockStep.inv (hstep : BlockStep s t) (h : Inv s) : Inv t := by
  cases hstep with
  | agent ha => exact ha.inv h
  | reset => exact Inv.powerOn h
  | write w hw => exact hostWrite_inv h hw

/-- Settles O45: taking the line, and then what it runs. -/
theorem everyStepKeepsTheInvariants : Obligations.EveryStepKeepsTheInvariants := by
  unfold Obligations.EveryStepKeepsTheInvariants
  intro s t h hstep
  exact (step_block h.sched hstep).inv (Inv.nextLine h)

end

end Sys2Proof.Laws
end

section
/-!
PROOF. O46, O56, O57, O58: what the invariants give for a step (R201 to R203, R283, R317): it does not stop, the queue is
FIFO and its packets stay whole, the transport is used as its contract says, and a waiting producer is served.
-/

namespace Sys2Proof.Laws

open Sys2Proof.Machine Sys2Proof.Safety

section
variable {s t : State}

/-! ### The build stays (R7) -/

theorem ResultStep.cfg {r : Option FaRes} (hr : ResultStep s r t) : t.cfg = s.cfg := by
  cases hr with
  | kept => rfl
  | trapped => rfl
  | completed => rw [(endRetrieve_dataKept .ok true _).cfg, writeImageOp_cfg]

theorem PacketStep.cfg {n : BitVec 6} {pay : List Byte} (hp : PacketStep n pay s t) : t.cfg = s.cfg := by
  cases hp with
  | unaccepted hr => exact hr.cfg
  | accepted f _ hr => exact hr.cfg

theorem SplitStep.cfg (hs : SplitStep s t) : t.cfg = s.cfg := by
  cases hs with
  | ended | dropped | cancelled | sent | waits => rfl

theorem AgentStep.cfg (hstep : AgentStep s t) : t.cfg = s.cfg := by
  cases hstep with
  | waits | rejected | openAccepted | closeAccepted | retrieveAccepted | snapshotAccepted | chunkTaken | transferred |
      transferLost | exited | snapshotOpened | resyncJoined | reconnecting | resumed | stopped | fired | backoffEnded => rfl
  | split _ hsplit => exact hsplit.cfg
  | opened => exact (respond_dataKept _ _).cfg
  | connectFailed => exact (respond_dataKept _ _).cfg
  | closed => exact (closeJoin_dataKept s).cfg
  | reopenFailed => exact (endRetrieve_dataKept _ _ _).cfg
  | timedOut => exact (endRetrieve_dataKept _ _ _).cfg
  | consumed _ _ _ _ hp => exact hp.cfg

theorem BlockStep.cfg (hstep : BlockStep s t) : t.cfg = s.cfg := by
  cases hstep with
  | agent ha => exact ha.cfg
  | reset => rfl
  | write w hw => exact (hostWrite_keeps hw).1

/-! ### No step stops (R202; log 16) -/

theorem faAcceptOp_total (n : BitVec 6) (pay : List Byte) (hlen : pay.length ≤ 160) (ho : s.fa.segOrd.toNat ≤ 4) :
    ∃ r u, faAcceptOp n pay s = .ok (r, u) := by
  obtain ⟨r, u, hcore⟩ := acceptCore_total n pay s hlen ho
  exact ⟨r, _, faAcceptOp_ok.mpr ⟨u, hcore, rfl⟩⟩

/-- Every packet has an effect (R270). -/
theorem treatPvres_total (r : PvRes) (pay : List Byte) (hlen : pay.length ≤ 160) (ho : s.fa.segOrd.toNat ≤ 4) :
    ∃ u, treatPvres r pay s = .ok u := by
  cases r with
  | fatal k => exact ⟨_, rfl⟩
  | discard => exact ⟨_, rfl⟩
  | sequenceNumber n =>
    obtain ⟨r, u, hop⟩ := faAcceptOp_total n pay hlen ho
    exact ⟨treatFares r u, by rw [treatPvres, acceptAndTreat, hop]⟩

/-- A turn of the retrieval loop answers a next state, where the queue's descriptors lie in ARENA. -/
theorem consumeStep_total (hhead : s.queue.head < s.cfg.qcap)
    (hdesc : 0 < s.queue.count → descOk s.cfg (qGet s s.queue.head) = true) (ho : s.fa.segOrd.toNat ≤ 4) :
    ∃ u, consumeStep s = .ok u := by
  unfold consumeStep
  split
  · exact ⟨_, rfl⟩
  · split
    · exact ⟨_, rfl⟩
    · split
      · next hq =>
        have hslice : readSlice (qGet s s.queue.head) (dequeued (emit (.consume .packet) s)) = .ok _ :=
          readSlice_eq _ _ (hdesc (by simpa [deqValid] using hq))
        have hdeq : fqDeqOp (emit (.consume .packet) s) =
            .ok (qGet s s.queue.head, dequeued (emit (.consume .packet) s)) := fqDeqOp_eq _ hhead
        rw [hdeq]
        simp only [hslice]
        refine treatPvres_total _ _ ?_ ho
        rw [pktPay, List.length_drop, readBytes_length]
      · exact ⟨_, rfl⟩

/-- The descriptor at the head is queued. -/
theorem head_queued (h : QueueInv s) (hq : 0 < s.queue.count) : qGet s s.queue.head ∈ queued s := by
  rw [queued_dequeued s hq h.head_lt]
  exact List.mem_cons_self ..

theorem consumeStep_next (h : Inv s) : ∃ u, consumeStep s = .ok u :=
  consumeStep_total h.queue.head_lt (fun hq => h.queue.desc_ok _ (head_queued h.queue hq)) h.fa.segOrd_le

theorem retrievalStep_next (h : Inv s) : ∃ u, retrievalStep s = .ok u := by
  unfold retrievalStep
  split
  · exact consumeStep_next h
  · exact ⟨_, rfl⟩

theorem snapshotStep_next (h : Inv s) : ∃ u, snapshotStep s = .ok u := by
  unfold snapshotStep
  split
  case h_2 | h_3 | h_4 | h_5 => exact retrievalStep_next h
  all_goals exact ⟨_, rfl⟩

theorem exitCancelStep_next (h : Inv s) : ∃ u, exitCancelStep s = .ok u := by
  unfold exitCancelStep
  split
  · exact ⟨_, rfl⟩
  · split
    · unfold exitAtSlice
      split
      · exact ⟨_, rfl⟩
      · next hi =>
        rw [curFirstByte_eq s h.prod.curChunk_lt (Nat.lt_of_le_of_ne h.prod.splitIdx_le hi)]
        exact ⟨_, rfl⟩
    · exact ⟨_, rfl⟩

/-- A step that waits where it is not enabled answers a next state if it does where it is. -/
theorem next_of_ite {c : Prop} [Decidable c] {o : Host.Outcome State Fault Refusal} (h : ∃ u, o = .next u) :
    ∃ u, (if c then o else .next s) = .next u := by
  split
  · exact h
  · exact ⟨s, rfl⟩

theorem next_of_ok {r : Except Fault State} (h : ∃ u, r = .ok u) : ∃ u, outcome r = .next u := by
  obtain ⟨u, rfl⟩ := h
  exact ⟨u, rfl⟩

theorem transfer_next (h : Inv s) : ∃ u, (if (answerOf s).ok then transferOk s else transferFail s) = .ok u := by
  split
  · exact ⟨_, transferOk_eq s h.prod.curChunk_lt⟩
  · exact ⟨_, transferFail_eq s h.prod.curChunk_lt⟩

theorem exec_agent_next {i : Instr} (h : Inv s) (hi : agentInstr i = true) : ∃ u, exec i s = .next u := by
  cases i
  case cmdOpen | cmdClose | cmdRetrieveFrame | cmdSnapshot | reserved0 | reserved5 | reserved6 | reserved7 | reset =>
    exact ⟨_, rfl⟩
  case rbNextChunk | scOpen | scClose | tmFire | tmBackoffEnd | scReject => exact next_of_ite ⟨_, rfl⟩
  case spTransfer => exact next_of_ite (next_of_ok (transfer_next h))
  case spSplit =>
    exact next_of_ite (next_of_ok (splitStep_total s h.prod.curChunk_lt h.prod.splitIdx_le (QueueInv.tail_lt h.queue)))
  case spExit reason =>
    cases reason with
    | cancel => exact next_of_ok (exitCancelStep_next h)
    | transferFailure => exact next_of_ite (next_of_ok ⟨_, transferFail_eq s h.prod.curChunk_lt⟩)
  case scRetrieveFrame => exact next_of_ite (next_of_ok (retrievalStep_next h))
  case scSnapshot => exact next_of_ite (next_of_ok (snapshotStep_next h))
  case scResync cause =>
    obtain rfl : cause = .none := by simpa [agentInstr] using hi
    exact ⟨_, rfl⟩
  case scConsume => exact next_of_ite (next_of_ok (consumeStep_next h))
  all_goals cases hi

/-- What an agent's line runs: an instruction of an agent, nothing, or a write. -/
theorem fetch_cases {l : Line} (hl : agentLine l = true) :
    (∃ i, fetch s l = .run i ∧ agentInstr i = true) ∨ fetch s l = .wait ∨ ∃ w, l = .write w := by
  cases l with
  | code c =>
    obtain ⟨i, hd, hi⟩ := agentLine_code hl s.regs.padMask s.regs.padPattern
    exact .inl ⟨i, by simp only [fetch, hd], hi⟩
  | producer =>
    cases hp : producerOp s with
    | none => exact .inr (.inl (by rw [fetch, hp]; rfl))
    | some i => exact .inl ⟨i, by rw [fetch, hp]; rfl, producerOp_agent hp⟩
  | consumer =>
    cases hc : consumerOp s with
    | none => exact .inr (.inl (by rw [fetch, hc]; rfl))
    | some i => exact .inl ⟨i, by rw [fetch, hc]; rfl, consumerOp_agent hc⟩
  | write w => exact .inr (.inr ⟨w, rfl⟩)

/-- A write of the host stops only outside DEST (log 16). -/
theorem hostWrite_total (w : HostWrite) (s : State) :
    (∃ u, hostWrite w s = .ok u) ∨ ∃ a v, w = .dest a v ∧ 19200 ≤ a ∧ hostWrite w s = .error .outsideDest := by
  cases w with
  | padMask | padPattern | deadline | backoff => exact .inl ⟨_, rfl⟩
  | dest a v =>
    by_cases ha : a < 19200
    · exact .inl ⟨_, if_pos ha⟩
    · exact .inr ⟨a, v, rfl, Nat.not_lt.mp ha, if_neg ha⟩

/-- Settles O46: an agent's instruction answers a next state under the invariants, a wait does, and a write of the host
does inside DEST. -/
theorem agentStepsNeverStop : Obligations.AgentStepsNeverStop := by
  unfold Obligations.AgentStepsNeverStop
  intro s h
  have hinv := Inv.nextLine h
  obtain ⟨i, hf, hi⟩ | hf | ⟨w, hl⟩ := fetch_cases (s := (nextLine s).2) (nextLine_agent h.sched).1
  · obtain ⟨u, hu⟩ := exec_agent_next hinv hi
    exact .inl ⟨u, by rw [step, hf]; exact hu⟩
  · exact .inl ⟨_, by rw [step, hf]; rfl⟩
  · rw [step_of_write hl]
    obtain ⟨u, hu⟩ | ⟨a, v, rfl, ha, hfault⟩ := hostWrite_total w (nextLine s).2
    · exact .inl ⟨u, by rw [hu]; rfl⟩
    · exact .inr ⟨a, v, hl, ha, by rw [hfault]; rfl⟩

/-! ### The queue (R71 to R73, R201) -/

/-- What a step does to the queue and to the bytes of its packets. -/
structure QueueMove (s t : State) : Prop where
  fifo : queued t = queued s ∨ (∃ d, queued t = queued s ++ [d]) ∨ (∃ d, queued s = d :: queued t) ∨ queued t = []
  whole : ∀ d, d ∈ queued s → d ∈ queued t → ∀ k, k < 164 →
    readByte t .arena (sliceAddr s.cfg d.chunk d.slot + k) = readByte s .arena (sliceAddr s.cfg d.chunk d.slot + k)

theorem readByte_arena_congr (harena : t.ring.arena = s.ring.arena) (hepoch : t.env.epoch = s.env.epoch) (a : Nat) :
    readByte t .arena a = readByte s .arena a := by
  simp only [readByte, cellsOf, harena, hepoch]

/-- A step that leaves FQ and ARENA alone. -/
theorem QueueMove.kept (hcfg : t.cfg = s.cfg) (hqueue : t.queue = s.queue) (harena : t.ring.arena = s.ring.arena)
    (hepoch : t.env.epoch = s.env.epoch) : QueueMove s t :=
  ⟨.inl (queued_congr hcfg hqueue hepoch), fun _ _ _ _ _ => readByte_arena_congr harena hepoch _⟩

theorem QueueMove.emptied (h : t.queue.count = 0) : QueueMove s t := by
  have hnil := queued_eq_nil h
  exact ⟨.inr (.inr (.inr hnil)), fun d _ hd => absurd hd (by simp [hnil])⟩

theorem QueueMove.of_dataKept (hk : DataKept s t) : QueueMove s t :=
  .kept hk.cfg hk.queue (by rw [hk.ring]) (by rw [hk.env])

/-- A move followed by a step that leaves FQ and ARENA alone. -/
theorem QueueMove.then {u : State} (h : QueueMove s t) (hcfg : u.cfg = t.cfg) (hqueue : u.queue = t.queue)
    (harena : u.ring.arena = t.ring.arena) (hepoch : u.env.epoch = t.env.epoch) : QueueMove s u := by
  have hq := queued_congr hcfg hqueue hepoch
  refine ⟨by rw [hq]; exact h.fifo, fun d hd hd' k hk => ?_⟩
  rw [readByte_arena_congr harena hepoch]
  exact h.whole d hd (hq ▸ hd') k hk

/-- A transfer writes a chunk that no queued descriptor names (R190, R201). -/
theorem QueueMove.transfer (h : Inv s) (hp : s.prod.pState = .xfer) {bs : List Byte}
    (hl : bs.length = chunkBytes s.cfg) : QueueMove s (chunkFilled bs s) := by
  refine ⟨.inl rfl, fun d hd _ k hk => ?_⟩
  have hne : d.chunk ≠ s.prod.curChunk := QueueInv.chunk_ne h.queue (h.prod.xfer_free hp) d hd
  have hslot : d.slot < s.cfg.p := by
    have hok := h.queue.desc_ok d hd
    simp only [descOk, decide_eq_true_eq] at hok
    exact hok.2
  obtain ⟨haddr, hin⟩ := slice_in_chunk (chunk := d.chunk) hslot hk
  rw [haddr]
  refine (readByte_withCells_cellsSet s .arena (chunkAddr s.cfg s.prod.curChunk) _ bs).trans (if_neg ?_)
  rintro ⟨hlo, hhi⟩
  rw [hl] at hhi
  simp only [chunkAddr] at hlo hhi
  obtain hlt | hgt := Nat.lt_or_gt_of_ne hne
  · have hmul := Nat.mul_le_mul_right (chunkBytes s.cfg) (Nat.succ_le_of_lt hlt)
    rw [Nat.succ_mul] at hmul
    omega
  · have hmul := Nat.mul_le_mul_right (chunkBytes s.cfg) (Nat.succ_le_of_lt hgt)
    rw [Nat.succ_mul] at hmul
    omega

theorem ResultStep.queueKept {r : Option FaRes} (hr : ResultStep s r t) :
    t.queue = s.queue ∧ t.ring.arena = s.ring.arena := by
  cases hr with
  | kept => exact ⟨rfl, rfl⟩
  | trapped => exact ⟨rfl, rfl⟩
  | completed =>
    have hk := endRetrieve_dataKept .ok true (writeImageOp s)
    exact ⟨hk.queue, by rw [hk.ring]; rfl⟩

theorem PacketStep.queueKept {n : BitVec 6} {pay : List Byte} (hp : PacketStep n pay s t) :
    t.queue = s.queue ∧ t.ring.arena = s.ring.arena := by
  cases hp with
  | unaccepted hr => exact hr.queueKept
  | accepted f _ hr => exact hr.queueKept

theorem SplitStep.queueMove (hs : SplitStep s t) (h : Inv s) : QueueMove s t := by
  cases hs with
  | ended | dropped | cancelled | waits => exact .kept rfl rfl rfl rfl
  | sent _ _ _ hq =>
    have hqs : queued (enqueued (curDesc s) s) = queued s ++ [curDesc s] := queued_enqueued _ s hq h.queue.tail_eq
    have hmove : QueueMove s (enqueued (curDesc s) s) := ⟨.inr (.inl ⟨_, hqs⟩), fun _ _ _ _ _ => rfl⟩
    exact hmove.then rfl rfl rfl rfl

theorem AgentStep.queueMove (hstep : AgentStep s t) (h : Inv s) : QueueMove s t := by
  cases hstep with
  | waits | rejected | openAccepted | closeAccepted | retrieveAccepted | snapshotAccepted | chunkTaken | exited |
      reconnecting | stopped | fired | backoffEnded => exact .kept rfl rfl rfl rfl
  | transferred hp => exact (QueueMove.transfer h hp (rxBytes_length s _)).then rfl rfl rfl rfl
  | transferLost hp => exact (QueueMove.transfer h hp (failedBytes_length s _)).then rfl rfl rfl rfl
  | split _ hsplit => exact hsplit.queueMove h
  | opened => exact .emptied (by rw [(respond_dataKept _ _).queue]; rfl)
  | snapshotOpened | resyncJoined | resumed => exact .emptied rfl
  | closed => exact .emptied (by rw [(closeJoin_dataKept s).queue]; rfl)
  | connectFailed =>
    have hk := respond_dataKept .errTransport { drawn s with ctl.scState := .closed }
    exact .kept hk.cfg hk.queue (by rw [hk.ring]; rfl) (by rw [hk.env]; rfl)
  | reopenFailed =>
    have hk := endRetrieve_dataKept .errReopen false (emit (.resyncEnd false) (drawn s))
    exact .kept hk.cfg hk.queue (congrArg Ring.arena hk.ring) (by rw [resyncFailed, hk.env]; rfl)
  | timedOut =>
    have hk := endRetrieve_dataKept .errTimeout true (emit (.consume .timeout) s)
    exact .kept hk.cfg hk.queue (congrArg Ring.arena hk.ring) (congrArg Env.epoch hk.env)
  | consumed _ hq hh _ hp =>
    have hmove : QueueMove s (dequeued (emit (.consume .packet) s)) :=
      ⟨.inr (.inr (.inl ⟨_, queued_dequeued (emit (.consume .packet) s) hq hh⟩)), fun _ _ _ _ _ => rfl⟩
    obtain ⟨hqueue, harena⟩ := hp.queueKept
    exact hmove.then hp.cfg hqueue harena (congrArg Env.epoch hp.env)

theorem BlockStep.queueMove (hstep : BlockStep s t) (h : Inv s) : QueueMove s t := by
  cases hstep with
  | agent ha => exact ha.queueMove h
  | reset => exact .emptied rfl
  | write w hw =>
    obtain ⟨hcfg, hring, hqueue, -, -, -, henv, -⟩ := hostWrite_keeps hw
    exact .kept hcfg hqueue (by rw [hring]) (by rw [henv])

/-- Taking the line touches neither FQ nor ARENA. -/
theorem queued_nextLine (s : State) : queued (nextLine s).2 = queued s := by
  obtain ⟨hcfg, -, -, hqueue, -, -, -, -, -, -, -, -, hepoch⟩ := nextLine_rest s
  exact queued_congr hcfg hqueue hepoch

/-- Settles O57: only SP.SPLIT appends, only the consumer takes, only a start, a flush or RESET empties, and only a
transfer writes ARENA, into a chunk that nothing references. -/
theorem queueIsFifoAndPacketsStayWhole : Obligations.QueueIsFifoAndPacketsStayWhole := by
  unfold Obligations.QueueIsFifoAndPacketsStayWhole
  intro s t h hstep
  have hblock := step_block h.sched hstep
  have hinv := Inv.nextLine h
  obtain ⟨hfifo, hwhole⟩ := hblock.queueMove hinv
  obtain ⟨hcfg, -, hring, -, -, -, -, -, -, -, -, -, hepoch⟩ := nextLine_rest s
  rw [queued_nextLine] at hfifo
  refine ⟨hfifo, ?_, fun d hd hd' k hk => ?_⟩
  · rw [queued_length, ← hcfg, ← hblock.cfg]
    exact (hblock.inv hinv).queue.count_le
  · have hbytes := hwhole d (by rwa [queued_nextLine]) hd' k hk
    rw [hcfg] at hbytes
    exact hbytes.trans (readByte_arena_congr (by rw [hring]) hepoch _)

/-! ### The transport (R283, R317) -/

/-- What a step may ask of the transport. -/
inductive Asked (s : State) : List TrRequest → Prop
  | nothing : Asked s s.out.requests
  | connect (h : s.ctl.trOpen = false) : Asked s (s.out.requests ++ [.connect s.cfg.connectArgs])
  | transfer (h : s.ctl.trOpen = true) (hp : s.prod.pState = .xfer) :
      Asked s (s.out.requests ++ [.transfer (s.cfg.p * 164)])
  | close (h : s.ctl.trOpen = true) (hp : running s = false) : Asked s (s.out.requests ++ [.close])

theorem Asked.of_eq {rs : List TrRequest} (h : rs = s.out.requests) : Asked s rs := h ▸ .nothing

theorem endRetrieve_requests (st : Status) (isOpen : Bool) (s : State) :
    (endRetrieve st isOpen s).out.requests = s.out.requests := by
  unfold endRetrieve
  simp only
  split
  · rw [respond_requests]
  · split
    · rfl
    · rw [respond_requests]

theorem ResultStep.requests {r : Option FaRes} (hr : ResultStep s r t) : t.out.requests = s.out.requests := by
  cases hr with
  | kept => rfl
  | trapped => rfl
  | completed => rw [endRetrieve_requests]; rfl

theorem PacketStep.requests {n : BitVec 6} {pay : List Byte} (hp : PacketStep n pay s t) :
    t.out.requests = s.out.requests := by
  cases hp with
  | unaccepted hr => exact hr.requests
  | accepted f _ hr => exact hr.requests

theorem SplitStep.requests (hs : SplitStep s t) : t.out.requests = s.out.requests := by
  cases hs with
  | ended | dropped | cancelled | sent | waits => rfl

theorem closeJoin_requests (s : State) : (closeJoin s).out.requests = s.out.requests ++ [.close] := by
  unfold closeJoin
  simp only
  split <;> rw [respond_requests] <;> rfl

theorem terminated_iff (s : State) :
    producerTerminated s = true ↔ s.prod.pState = .doneCancel ∨ s.prod.pState = .doneFail ∨ s.prod.pState = .idle := by
  simp [producerTerminated, or_assoc]

/-- A producer has terminated exactly when it is not running (R199). -/
theorem terminated_iff_not_running (s : State) : producerTerminated s = true ↔ running s = false := by
  rw [terminated_iff, ← Bool.not_eq_true, running_iff]
  cases s.prod.pState <;> simp

theorem AgentStep.asked (hstep : AgentStep s t) (h : Inv s) : Asked s t.out.requests := by
  have hok := h.ctl.state_ok
  cases hstep with
  | waits | rejected | closeAccepted | retrieveAccepted | chunkTaken | exited | snapshotOpened | resumed | stopped |
      fired | backoffEnded => exact .nothing
  | openAccepted _ hs =>
    obtain ⟨-, ho, -⟩ := ctlOk_closed hok hs
    exact .connect ho
  | snapshotAccepted _ hs =>
    obtain ⟨-, ho, -⟩ := ctlOk_closed hok hs
    exact .connect ho
  | transferred hp => exact .transfer (h.prod.running_open ((running_iff s).mpr (.inr (.inl hp)))) hp
  | transferLost hp => exact .transfer (h.prod.running_open ((running_iff s).mpr (.inr (.inl hp)))) hp
  | split _ hsplit => exact .of_eq hsplit.requests
  | opened => exact .of_eq (respond_requests _ _)
  | connectFailed => exact .of_eq (respond_requests _ _)
  | closed hs hp =>
    obtain ⟨-, ho, -⟩ := ctlOk_clJoin hok hs
    rw [closeJoin_requests]
    exact .close ho ((terminated_iff_not_running s).mp hp)
  | resyncJoined hs hp =>
    obtain ⟨-, ho, -⟩ := ctlOk_rsJoin hok hs
    exact .close ho ((terminated_iff_not_running s).mp hp)
  | reconnecting hs =>
    obtain ⟨-, ho, -⟩ := ctlOk_rsBackoff hok hs
    exact .connect ho
  | reopenFailed => exact .of_eq (endRetrieve_requests _ _ _)
  | timedOut => exact .of_eq (endRetrieve_requests _ _ _)
  | consumed _ _ _ _ hp => exact .of_eq hp.requests

/-- Settles O56: of the rows of `AgentStep` six make a request, each where the controller's state or the running producer
allows it. -/
theorem transportIsUsedAsItsContractSays : Obligations.TransportIsUsedAsItsContractSays := by
  unfold Obligations.TransportIsUsedAsItsContractSays
  intro s t h hstep
  obtain ⟨hcfg, -, -, -, hprod, hctl, -, -, -, -, hout, -⟩ := nextLine_rest s
  have hrun : running (nextLine s).2 = running s := by rw [running, running, hprod]
  have hasked : Asked (nextLine s).2 t.out.requests := by
    cases step_block h.sched hstep with
    | agent ha => exact ha.asked (Inv.nextLine h)
    | reset => exact .nothing
    | write w hw =>
      obtain ⟨-, -, -, -, -, -, -, hkept⟩ := hostWrite_keeps hw
      exact .of_eq (by rw [hkept])
  rw [← hcfg, ← hout, ← hctl, ← hprod, ← hrun]
  generalize hrs : t.out.requests = rs at hasked
  cases hasked with
  | nothing => exact .inl rfl
  | connect ho => exact .inr (.inl ⟨rfl, ho⟩)
  | transfer ho hp => exact .inr (.inr (.inl ⟨rfl, ho, hp⟩))
  | close ho hr => exact .inr (.inr (.inr ⟨rfl, ho, hr⟩))

/-! ### A waiting producer (R203) -/

/-- A turn with a packet queued and no deadline lowers the occupancy by one. -/
theorem consume_count {u : State} (hd : s.tim.dlFired = false) (hp : s.prod.pState ≠ .doneFail)
    (hq : 0 < s.queue.count) (h : consumeStep s = .ok u) : u.queue.count + 1 = s.queue.count := by
  obtain ⟨hd', -⟩ | ⟨-, hp', -⟩ | ⟨-, -, -, -, pkt, -, hpkt⟩ | ⟨-, -, hq', -⟩ := consumeStep_ok h
  · exact absurd (hd.symm.trans hd') Bool.false_ne_true
  · exact absurd hp' hp
  · obtain ⟨hqueue, -⟩ := (treatPvres_step hpkt).queueKept
    rw [hqueue]
    exact Nat.sub_add_cancel hq
  · omega

/-- Settles O58: a referenced chunk and a full queue each show a queued packet; the consumer's turn takes it. -/
theorem waitingProducerMeetsAQueuedPacket : Obligations.WaitingProducerMeetsAQueuedPacket := by
  unfold Obligations.WaitingProducerMeetsAQueuedPacket
  intro s h _ hwait
  have hq : 0 < s.queue.count := by
    obtain ⟨-, href⟩ | ⟨-, -, hfull⟩ := hwait
    · rw [h.queue.refcnt_eq] at href
      obtain ⟨d, hd, -⟩ := List.countP_pos_iff.mp (Nat.pos_of_ne_zero href)
      rw [← queued_length]
      exact List.length_pos_of_mem hd
    · rw [hfull]
      exact qcap_pos _
  have hp : s.prod.pState ≠ .doneFail := by
    obtain ⟨hp, -⟩ | ⟨hp, -⟩ := hwait <;> rw [hp] <;> decide
  refine ⟨hq, fun hs hd => ?_⟩
  obtain ⟨u, hu⟩ := consumeStep_next h
  refine ⟨u, ?_, consume_count hd hp hq hu⟩
  change (if s.ctl.scState = .retr then outcome (consumeStep s) else .next s) = _
  rw [if_pos hs, hu]
  rfl

end

end Sys2Proof.Laws
end

section
/-!
PROOF. O50: without TRACE every instruction does the same (R285). `quiet` takes TRACE and the records away; every
operation commutes with it, because a trace record is written by `emit` alone and read by nothing.
-/

namespace Sys2Proof.Laws

open Sys2Proof.Machine Sys2Proof.Safety

/-- An operation does the same without TRACE. -/
def QuietOp (f : State → State) : Prop := ∀ s, f (quiet s) = quiet (f s)

/-- An operation that may stop does the same without TRACE. -/
def QuietTry (f : State → Except Fault State) : Prop := ∀ s, f (quiet s) = (f s).map quiet

/-- The outcome without TRACE. -/
def quietOutcome : Host.Outcome State Fault Refusal → Host.Outcome State Fault Refusal
  | .next s => .next (quiet s)
  | .fault f => .fault f
  | .refused r => .refused r

theorem outcome_map_quiet (r : Except Fault State) : outcome (r.map quiet) = quietOutcome (outcome r) := by
  cases r <;> rfl

theorem quietOutcome_ite {c : Prop} [Decidable c] (x y : Host.Outcome State Fault Refusal) :
    quietOutcome (if c then x else y) = if c then quietOutcome x else quietOutcome y := by
  split <;> rfl

theorem quiet_ite {c : Prop} [Decidable c] (x y : State) : quiet (if c then x else y) = if c then quiet x else quiet y := by
  split <;> rfl

theorem map_quiet_ite {c : Prop} [Decidable c] (x y : Except Fault State) :
    (if c then x else y).map quiet = if c then x.map quiet else y.map quiet := by
  split <;> rfl

/-! ### Operations without a branch -/

theorem emit_quiet (e : Event) : QuietOp (emit e) := fun _ => rfl

theorem request_quiet (r : TrRequest) : QuietOp (request r) := fun _ => rfl

theorem putPv_quiet (r : PvRes) : QuietOp (putPv r) := fun _ => rfl

theorem reject_quiet (code : BitVec 3) : QuietOp (reject code) := fun _ => rfl

theorem raiseResync_quiet (c : Cause) : QuietOp (raiseResync c) := fun _ => rfl

theorem dequeued_quiet : QuietOp dequeued := fun _ => rfl

theorem enqueued_quiet (d : Desc) : QuietOp (enqueued d) := fun _ => rfl

theorem writeImageOp_quiet : QuietOp writeImageOp := fun _ => rfl

theorem fqFlushOp_quiet : QuietOp fqFlushOp := fun _ => rfl

theorem spStartOp_quiet : QuietOp spStartOp := fun _ => rfl

theorem exitOnCancel_quiet : QuietOp exitOnCancel := fun _ => rfl

/-! ### Memory, the queue and the producer -/

theorem memWrite_quiet (sp : ByteSpace) (a : Nat) (bs : List Byte) : QuietTry (memWrite sp a bs) := fun s => by
  obtain ⟨h, hw⟩ | ⟨h, hw⟩ := memWrite_cases sp a bs s
  · rw [hw]
    cases sp <;> exact if_pos h
  · rw [hw]
    cases sp <;> exact if_neg (Nat.not_le.mpr h)

theorem transferOk_quiet : QuietTry transferOk := fun s => by
  have hw := memWrite_quiet .arena (chunkAddr s.cfg s.prod.curChunk) (rxBytes s (chunkBytes s.cfg)) s
  change (match memWrite .arena (chunkAddr s.cfg s.prod.curChunk) (rxBytes s (chunkBytes s.cfg)) (quiet s) with
    | .error f => Except.error f
    | .ok s1 => .ok (emit (.xfer s.prod.curChunk true)
      (request (.transfer (chunkBytes s.cfg)) (drawn { s1 with prod.splitIdx := 0, prod.pState := .split })))) = _
  rw [hw, transferOk]
  cases memWrite .arena (chunkAddr s.cfg s.prod.curChunk) (rxBytes s (chunkBytes s.cfg)) s <;> rfl

theorem transferFail_quiet : QuietTry transferFail := fun s => by
  have hw := memWrite_quiet .arena (chunkAddr s.cfg s.prod.curChunk) (failedBytes s (chunkBytes s.cfg)) s
  change (match memWrite .arena (chunkAddr s.cfg s.prod.curChunk) (failedBytes s (chunkBytes s.cfg)) (quiet s) with
    | .error f => Except.error f
    | .ok s1 => .ok (emit (.spExit .transferFailure) (emit (.xfer s.prod.curChunk false)
      (request (.transfer (chunkBytes s.cfg)) (drawn { s1 with prod.pState := .doneFail }))))) = _
  rw [hw, transferFail]
  cases memWrite .arena (chunkAddr s.cfg s.prod.curChunk) (failedBytes s (chunkBytes s.cfg)) s <;> rfl

theorem fqEnqOp_quiet (d : Desc) : QuietTry (fqEnqOp d) := fun s => by
  change (if descOk s.cfg d then (if s.queue.tail < s.cfg.qcap then Except.ok (enqueued d (quiet s))
    else .error .outsideQstore) else .error .outsideArena) = (fqEnqOp d s).map quiet
  rw [fqEnqOp, map_quiet_ite, map_quiet_ite]
  rfl

theorem fqDeqOp_quiet (s : State) : fqDeqOp (quiet s) = (fqDeqOp s).map fun x => (x.1, quiet x.2) := by
  by_cases h : s.queue.head < s.cfg.qcap
  · rw [fqDeqOp_eq s h]
    exact fqDeqOp_eq (quiet s) h
  · rw [show fqDeqOp s = .error .outsideQstore from if_neg h]
    exact if_neg h

theorem curFirstByte_quiet (s : State) : curFirstByte (quiet s) = curFirstByte s := rfl

theorem splitQueue_quiet : QuietTry splitQueue := fun s => by
  change (if s.prod.cancel then Except.ok (exitOnCancel { quiet s with out.pf := some false })
    else if enqReady s then (match fqEnqOp (curDesc s) (quiet s) with
      | .error f => .error f
      | .ok s1 => .ok { s1 with prod.splitIdx := s.prod.splitIdx + 1, out.pf := some false })
    else .ok (quiet s)) = _
  rw [fqEnqOp_quiet, splitQueue, map_quiet_ite, map_quiet_ite]
  cases fqEnqOp (curDesc s) s <;> rfl

theorem splitStep_quiet : QuietTry splitStep := fun s => by
  change (if s.prod.splitIdx = s.cfg.p then
      Except.ok (emit (.splitDone s.prod.curChunk) { quiet s with prod.pState := .acq })
    else match curFirstByte s with
      | .error f => .error f
      | .ok b0 => if pfMatchOp s b0 then
          .ok (emit (.pfDrop s.prod.curChunk s.prod.splitIdx)
            { quiet s with prod.splitIdx := s.prod.splitIdx + 1, out.pf := some true })
        else splitQueue (quiet s)) = _
  rw [splitQueue_quiet, splitStep, map_quiet_ite]
  cases curFirstByte s with
  | error f => rfl
  | ok b0 =>
    simp only [map_quiet_ite]
    rfl

theorem exitAtSlice_quiet : QuietTry exitAtSlice := fun s => by
  change (if s.prod.splitIdx = s.cfg.p then Except.ok (quiet s)
    else match curFirstByte s with
      | .error f => .error f
      | .ok b0 => .ok (if pfMatchOp s b0 then quiet s else exitOnCancel { quiet s with out.pf := some false })) = _
  rw [exitAtSlice, map_quiet_ite]
  cases curFirstByte s with
  | error f => rfl
  | ok b0 =>
    change _ = if s.prod.splitIdx = s.cfg.p then _ else
      Except.ok (quiet (if pfMatchOp s b0 then s else exitOnCancel { s with out.pf := some false }))
    rw [quiet_ite]
    rfl

theorem exitCancelStep_quiet : QuietTry exitCancelStep := fun s => by
  change (if s.prod.cancel = true ∧ s.prod.pState = .acq then Except.ok (exitOnCancel (quiet s))
    else if s.prod.cancel = true ∧ s.prod.pState = .split then exitAtSlice (quiet s) else .ok (quiet s)) = _
  rw [exitAtSlice_quiet, exitCancelStep, map_quiet_ite, map_quiet_ite]
  rfl

/-! ### FA -/

theorem copySegment_quiet (n : BitVec 6) : QuietTry (copySegment n) := fun s => by
  change (if n = 59 ∧ 0 < s.fa.segOrd.toNat then memWrite .framebuf ((s.fa.segOrd.toNat - 1) * Config.segBytes)
    (readBytes s .segbuf 0 Config.segBytes) (quiet s) else .ok (quiet s)) = _
  rw [memWrite_quiet, copySegment, map_quiet_ite]
  rfl

theorem acceptCore_quiet (n : BitVec 6) (pay : List Byte) (s : State) :
    acceptCore n pay (quiet s) = (acceptCore n pay s).map fun x => (x.1, quiet x.2) := by
  by_cases hseq : seqOk s.fa.lastPn n
  · have hq : seqOk (quiet s).fa.lastPn n = true := hseq
    rw [acceptCore, acceptCore, if_pos hseq, if_pos hq, memWrite_quiet]
    cases memWrite .segbuf (n.toNat * Config.payBytes) pay s with
    | error f => rfl
    | ok s1 =>
      change (match ordinalAfter n pay s1.fa.segOrd with
        | .error d => Except.ok (FaRes.sequenceError d, quiet s1)
        | .ok o => match copySegment n (quiet { s1 with fa.segOrd := o }) with
          | .error f => .error f
          | .ok s2 => .ok (acceptResult n o, { s2 with fa.lastPn := some n })) = Except.map _
        (match ordinalAfter n pay s1.fa.segOrd with
        | .error d => Except.ok (FaRes.sequenceError d, s1)
        | .ok o => match copySegment n { s1 with fa.segOrd := o } with
          | .error f => .error f
          | .ok s2 => .ok (acceptResult n o, { s2 with fa.lastPn := some n }))
      cases ordinalAfter n pay s1.fa.segOrd with
      | error d => rfl
      | ok o =>
        simp only [copySegment_quiet n _]
        cases copySegment n { s1 with fa.segOrd := o } <;> rfl
  · rw [show acceptCore n pay s = .ok (.sequenceError .outOfOrderPacket, s) from if_neg hseq]
    exact if_neg hseq

theorem faAcceptOp_quiet (n : BitVec 6) (pay : List Byte) (s : State) :
    faAcceptOp n pay (quiet s) = (faAcceptOp n pay s).map fun x => (x.1, quiet x.2) := by
  rw [faAcceptOp, faAcceptOp, acceptCore_quiet]
  cases acceptCore n pay s <;> rfl

/-! ### Answers, the trap and the end of a retrieval -/

theorem emitCmd_quiet (st : Status) : QuietOp (emitCmd st) := fun s => by
  have hctl : (quiet s).ctl = s.ctl := rfl
  rw [emitCmd, emitCmd, hctl]
  split <;> rfl

theorem respond_quiet (st : Status) : QuietOp (respond st) := fun s => by
  have h := emitCmd_quiet st { s with stat.status := st }
  change answer st { emitCmd st (quiet { s with stat.status := st }) with ctl.cmd := .none } = _
  rw [h]
  rfl

theorem endRetrieve_quiet (st : Status) (isOpen : Bool) : QuietOp (endRetrieve st isOpen) := fun s => by
  by_cases hcmd : s.ctl.cmd = .retrieveFrame
  · rw [endRetrieve_frame st isOpen hcmd, endRetrieve_frame (s := quiet s) st isOpen hcmd]
    exact respond_quiet st { s with tim.dlArmed := false, ctl.scState := if isOpen then .opened else .closed }
  · cases isOpen with
    | true =>
      rw [endRetrieve_snapshot_open st s hcmd, endRetrieve_snapshot_open st (quiet s) hcmd]
      rfl
    | false =>
      rw [endRetrieve_closed_snapshot st hcmd, endRetrieve_closed_snapshot (s := quiet s) st hcmd]
      exact respond_quiet st { s with tim.dlArmed := false, ctl.snapStatus := st, ctl.scState := .closed }

theorem raiseInRetr_quiet (c : Cause) : QuietOp (raiseInRetr c) := fun s => by
  rw [raiseInRetr, raiseInRetr, quiet_ite]
  rfl

theorem treatFares_quiet (r : FaRes) : QuietOp (treatFares r) := fun s => by
  cases r with
  | incomplete => rfl
  | complete =>
    change (if s.ctl.scState = .retr then endRetrieve .ok true (quiet (writeImageOp s)) else quiet s) = quiet (if _ then _ else _)
    rw [endRetrieve_quiet, quiet_ite]
  | sequenceError d => exact raiseInRetr_quiet _ s

theorem acceptAndTreat_quiet (n : BitVec 6) (pay : List Byte) : QuietTry (acceptAndTreat n pay) := fun s => by
  rw [acceptAndTreat, acceptAndTreat, faAcceptOp_quiet]
  cases faAcceptOp n pay s with
  | error f => rfl
  | ok x => exact congrArg Except.ok (treatFares_quiet x.1 x.2)

theorem treatPvres_quiet (r : PvRes) (pay : List Byte) : QuietTry (treatPvres r pay) := fun s => by
  cases r with
  | fatal k => exact congrArg Except.ok (raiseInRetr_quiet _ s)
  | discard => rfl
  | sequenceNumber n => exact acceptAndTreat_quiet n pay s

theorem consumePacket_quiet (pkt : List Byte) : QuietTry (consumePacket pkt) := fun s =>
  treatPvres_quiet (validate pkt) (pktPay pkt) (putPv (validate pkt) s)

/-! ### The controller -/

theorem consumeStep_quiet : QuietTry consumeStep := fun s => by
  have hdeq := fqDeqOp_quiet (emit (.consume .packet) s)
  change (if s.tim.dlFired then Except.ok (endRetrieve .errTimeout true (quiet (emit (.consume .timeout) s)))
    else if s.prod.pState = .doneFail then
      .ok (raiseResync .pipelineStopped (quiet (emit (.consume .pipelineStopped) s)))
    else if deqValid s then
      match fqDeqOp (quiet (emit (.consume .packet) s)) with
      | .error f => .error f
      | .ok (d, s1) => match readSlice d s1 with
        | .error f => .error f
        | .ok pkt => consumePacket pkt s1
    else .ok (quiet s)) = _
  rw [endRetrieve_quiet, raiseResync_quiet, hdeq, consumeStep, map_quiet_ite, map_quiet_ite, map_quiet_ite]
  cases fqDeqOp (emit (.consume .packet) s) with
  | error f => rfl
  | ok x =>
    obtain ⟨d, s1⟩ := x
    change (if _ then _ else if _ then _ else if _ then
      (match readSlice d s1 with
        | .error f => Except.error f
        | .ok pkt => consumePacket pkt (quiet s1)) else _) = if _ then _ else if _ then _ else if _ then
      Except.map quiet (match readSlice d s1 with
        | .error f => Except.error f
        | .ok pkt => consumePacket pkt s1) else _
    cases readSlice d s1 with
    | error f => rfl
    | ok pkt => simp only [consumePacket_quiet pkt s1]; rfl

theorem resyncStep_quiet : QuietOp resyncStep := fun s => by
  have hctl : (quiet s).ctl = s.ctl := rfl
  rw [resyncStep, resyncStep, hctl]
  split
  case h_1 => rw [quiet_ite]; rfl
  case h_2 => rw [quiet_ite]; rfl
  case h_3 =>
    rw [quiet_ite, resyncFailed, resyncFailed, ← endRetrieve_quiet]
    rfl
  all_goals rfl

theorem retrievalStep_quiet : QuietTry retrievalStep := fun s => by
  rw [retrievalStep, retrievalStep, map_quiet_ite, consumeStep_quiet, resyncStep_quiet]
  rfl

theorem openConnect_quiet : QuietOp openConnect := fun s => by
  rw [openConnect, openConnect, quiet_ite, ← respond_quiet, ← respond_quiet]
  rfl

theorem snapshotConnect_quiet : QuietOp snapshotConnect := fun s => by
  rw [snapshotConnect, snapshotConnect, quiet_ite, ← respond_quiet]
  rfl

theorem closeJoin_quiet : QuietOp closeJoin := fun s => by
  simp only [closeJoin, quiet_ite]
  rw [← respond_quiet, ← respond_quiet]
  rfl

theorem snapshotStep_quiet : QuietTry snapshotStep := fun s => by
  have hctl : (quiet s).ctl = s.ctl := rfl
  rw [snapshotStep, snapshotStep, hctl]
  split
  case h_1 => rw [snapshotConnect_quiet]; rfl
  case h_2 | h_3 | h_4 | h_5 => exact retrievalStep_quiet s
  case h_6 =>
    rw [closeJoin_quiet]
    change _ = Except.ok (quiet (if _ then _ else _))
    rw [quiet_ite]
    rfl
  all_goals rfl

theorem present_quiet (code : BitVec 3) {accept : State → State} (h : QuietOp accept) : QuietOp (present code accept) :=
  fun s => by
    rw [present, present, h, quiet_ite, quiet_ite]
    rfl

theorem reserved_quiet (code : BitVec 3) : QuietOp fun s => if portReady s then reject code s else s := fun s => by
  rw [quiet_ite]
  rfl

/-! ### Every instruction -/

/-- An instruction that is an operation, or waits. -/
theorem quiet_waits {c : Prop} [Decidable c] {s : State} {x y : Host.Outcome State Fault Refusal}
    (h : x = quietOutcome y) : (if c then x else .next (quiet s)) = quietOutcome (if c then y else .next s) := by
  rw [quietOutcome_ite, h]
  rfl

theorem quiet_try {f : State → Except Fault State} (h : QuietTry f) (s : State) :
    outcome (f (quiet s)) = quietOutcome (outcome (f s)) := by
  rw [h, outcome_map_quiet]

theorem quiet_op {f : State → State} (h : QuietOp f) (s : State) :
    (.next (f (quiet s)) : Host.Outcome State Fault Refusal) = quietOutcome (.next (f s)) :=
  congrArg _ (h s)

/-- A packet class: PV's result stands, and is treated. -/
theorem quiet_packet (r : PvRes) (pay : List Byte) (s : State) :
    outcome (treatPvres r pay (putPv r (quiet s))) = quietOutcome (outcome (treatPvres r pay (putPv r s))) :=
  quiet_try (f := fun s => treatPvres r pay (putPv r s)) (fun s => treatPvres_quiet r pay (putPv r s)) s

theorem execPfMatch_quiet (b0 : Byte) (s : State) : execPfMatch b0 (quiet s) = quietOutcome (execPfMatch b0 s) := by
  refine congrArg Host.Outcome.next ?_
  rw [quiet_ite]
  rfl

theorem execFaAccept_quiet (n : BitVec 6) (pay : List Byte) (s : State) :
    execFaAccept n pay (quiet s) = quietOutcome (execFaAccept n pay s) := by
  rw [execFaAccept, execFaAccept, faAcceptOp_quiet]
  cases faAcceptOp n pay s <;> rfl

theorem execFqDeq_quiet (s : State) : execFqDeq (quiet s) = quietOutcome (execFqDeq s) := by
  refine quiet_waits ?_
  rw [fqDeqOp_quiet]
  cases fqDeqOp s <;> rfl

theorem transferStep_quiet : QuietTry fun s => if (answerOf s).ok then transferOk s else transferFail s := fun s => by
  change (if (answerOf s).ok then transferOk (quiet s) else transferFail (quiet s)) =
    Except.map quiet (if (answerOf s).ok then transferOk s else transferFail s)
  rw [transferOk_quiet, transferFail_quiet, map_quiet_ite]

theorem execScResync_quiet (cause : Cause) (s : State) :
    execScResync cause (quiet s) = quietOutcome (execScResync cause s) := by
  rw [execScResync, execScResync, quietOutcome_ite, resyncStep_quiet, raiseInRetr_quiet]
  rfl

theorem exec_quiet (i : Instr) (s : State) : exec i (quiet s) = quietOutcome (exec i s) := by
  cases i with
  | pad => rfl
  | fatal t pn crc pay => exact quiet_packet (.fatal .errorFlag) pay s
  | badnum t pn crc pay => exact quiet_packet (.fatal .invalidPacketNumber) pay s
  | blank t crc pay => exact quiet_packet .discard pay s
  | data0 t crc pay => exact quiet_packet (.sequenceNumber 0) pay s
  | data20 t crc pay => exact quiet_packet (.sequenceNumber 20) pay s
  | data59 t crc pay => exact quiet_packet (.sequenceNumber 59) pay s
  | data t n crc pay => exact quiet_packet (.sequenceNumber n) pay s
  | cmdOpen => exact quiet_op (present_quiet 1 (accept := acceptOpen) fun _ => rfl) s
  | cmdClose => exact quiet_op (present_quiet 2 (accept := acceptClose) fun _ => rfl) s
  | cmdRetrieveFrame => exact quiet_op (present_quiet 3 (accept := acceptRetrieve) fun _ => rfl) s
  | cmdSnapshot => exact quiet_op (present_quiet 4 (accept := acceptSnapshot) fun _ => rfl) s
  | reserved0 => exact quiet_op (reserved_quiet 0) s
  | reserved5 => exact quiet_op (reserved_quiet 5) s
  | reserved6 => exact quiet_op (reserved_quiet 6) s
  | reserved7 => exact quiet_op (reserved_quiet 7) s
  | pfMatch b0 => exact execPfMatch_quiet b0 s
  | faAccept n pay => exact execFaAccept_quiet n pay s
  | pvValidate | faReset | faWriteImage | spCancel | reset => rfl
  | rbNextChunk | fqFlush | spStart | tmFire | tmBackoffEnd => exact quiet_waits rfl
  | spTransfer => exact quiet_waits (quiet_try transferStep_quiet s)
  | spSplit => exact quiet_waits (quiet_try splitStep_quiet s)
  | fqEnq chunk slot => exact quiet_waits (quiet_try (fqEnqOp_quiet (descOperand chunk slot)) s)
  | fqDeq => exact execFqDeq_quiet s
  | spExit reason =>
    cases reason with
    | cancel => exact quiet_try exitCancelStep_quiet s
    | transferFailure => exact quiet_waits (quiet_try transferFail_quiet s)
  | scOpen => exact quiet_waits (quiet_op openConnect_quiet s)
  | scClose => exact quiet_waits (quiet_op closeJoin_quiet s)
  | scRetrieveFrame => exact quiet_waits (quiet_try retrievalStep_quiet s)
  | scSnapshot => exact quiet_waits (quiet_try snapshotStep_quiet s)
  | scResync cause => exact execScResync_quiet cause s
  | scConsume => exact quiet_waits (quiet_try consumeStep_quiet s)
  | scReject code => exact quiet_waits rfl
  | pvresSequenceNumber n pay => exact quiet_try (treatPvres_quiet (.sequenceNumber n) pay) s
  | pvresDiscard => rfl
  | pvresErrorFlag => exact quiet_try (treatPvres_quiet (.fatal .errorFlag) []) s
  | pvresInvalidPacketNumber => exact quiet_try (treatPvres_quiet (.fatal .invalidPacketNumber) []) s
  | faresIncomplete => rfl
  | faresComplete => exact quiet_op (treatFares_quiet .complete) s
  | faresOutOfOrderPacket => exact quiet_op (treatFares_quiet (.sequenceError .outOfOrderPacket)) s
  | faresInvalidSegmentOrdinal => exact quiet_op (treatFares_quiet (.sequenceError .invalidSegmentOrdinal)) s
  | faresOutOfOrderSegment => exact quiet_op (treatFares_quiet (.sequenceError .outOfOrderSegment)) s

/-- Settles O50: `exec` commutes with taking TRACE and the records away. -/
theorem traceInfluencesNothing : Obligations.TraceInfluencesNothing := by
  unfold Obligations.TraceInfluencesNothing
  intro i s t h
  rw [exec_quiet, h]
  rfl

end Sys2Proof.Laws
end

section
/-!
PROOF. O7, O12 to O14, O17 to O21: the units, FA.ACCEPT and the treatment of its result (R140 to R169, R234). `Frame` puts
what a step may write and the records it adds together, so that the frames of operations performed one after the other are
composed.
-/

namespace Sys2Proof.Laws

open Sys2Proof.Machine Sys2Proof.Safety

/-! ### Frames, composed -/

/-- A step writes `ps` at most and adds the records `es`. -/
structure Frame (ps : List Part) (es : List Event) (s t : State) : Prop where
  allBut : AllBut ps s t
  traced : Traced s t es

section
variable {ps qs : List Part} {es fs : List Event} {s t u : State}

theorem AllBut.mono (h : AllBut ps s t) (hsub : ∀ p ∈ ps, p ∈ qs) : AllBut qs s t :=
  fun p hp => h p fun hin => hp (hsub p hin)

theorem Traced.trans (h : Traced s t es) (hcfg : t.cfg = s.cfg) (h' : Traced t u fs) : Traced s u (es ++ fs) := by
  unfold Traced at *
  rw [h', hcfg, h]
  cases s.cfg.trace <;> simp

theorem Frame.mono (h : Frame ps es s t) (hsub : ∀ p ∈ ps, p ∈ qs) : Frame qs es s t :=
  ⟨AllBut.mono h.allBut hsub, h.traced⟩

/-- Operations one after the other; none of them writes the build. -/
theorem Frame.trans (h : Frame ps es s t) (h' : Frame qs fs t u) (hcfg : .cfg ∉ ps) :
    Frame (qs ++ ps) (es ++ fs) s u :=
  ⟨AllBut.trans h.allBut h'.allBut, Traced.trans h.traced (h.allBut .cfg hcfg) h'.traced⟩

theorem frame_refl (s : State) : Frame [] [] s s := by
  refine ⟨fun p _ => same_refl p s, ?_⟩
  cases h : s.cfg.trace <;> simp [Traced, h]

/-- What writes no record. -/
theorem traced_nil (h : t.out.trace = s.out.trace) : Traced s t [] := by
  rw [Traced, h]
  cases s.cfg.trace <;> simp

theorem frame_emit (e : Event) (s : State) : Frame [.trace] [e] s (emit e s) := ⟨allBut_trace_emit e s, rfl⟩

theorem frame_putPv (r : PvRes) (s : State) : Frame [.outPv, .trace] [.validate r] s (putPv r s) :=
  ⟨putPv_allBut r s, putPv_traced r s⟩

theorem frame_putFa (r : FaRes) (s : State) : Frame [.outFa, .trace] [.accept r] s (putFa r s) :=
  ⟨putFa_allBut r s, putFa_traced r s⟩

theorem frame_writeImageOp (s : State) : Frame [.dest, .trace] [.writeImage] s (writeImageOp s) :=
  ⟨writeImageOp_allBut s, writeImageOp_traced s⟩

theorem frame_faResetOp (s : State) : Frame [.lastPn, .segOrd, .trace] [.faReset] s (faResetOp s) :=
  ⟨faResetOp_allBut s, faResetOp_traced s⟩

/-- PF's output. -/
theorem frame_putPf (b : Bool) (s : State) : Frame [.outPf] [] s { s with out.pf := some b } := by
  refine ⟨fun p hp => ?_, traced_nil rfl⟩
  have h := same_refl p s
  cases p
  case outPf => simp at hp
  all_goals exact h

theorem frame_spCancelOp (s : State) : Frame [.cancel, .trace] [.spCancel] s (spCancelOp s) := by
  refine ⟨AllBut.emit (fun p hp => ?_) (by decide) .spCancel, rfl⟩
  have h := same_refl p s
  cases p
  case cancel => simp at hp
  all_goals exact h

/-- The registers of the controller that a step sets beside an operation. -/
theorem frame_scState (st : ScState) (s : State) : Frame [.scState] [] s { s with ctl.scState := st } := by
  refine ⟨fun p hp => ?_, traced_nil rfl⟩
  have h := same_refl p s
  cases p
  case scState => simp at hp
  all_goals exact h

theorem frame_dlArmed (b : Bool) (s : State) : Frame [.dlArmed] [] s { s with tim.dlArmed := b } := by
  refine ⟨fun p hp => ?_, traced_nil rfl⟩
  have h := same_refl p s
  cases p
  case dlArmed => simp at hp
  all_goals exact h

theorem frame_cause (c : Cause) (s : State) : Frame [.cause] [] s { s with stat.cause := c } := by
  refine ⟨fun p hp => ?_, traced_nil rfl⟩
  have h := same_refl p s
  cases p
  case cause => simp at hp
  all_goals exact h

/-- The entry of a resynchronisation (R235, R274). -/
theorem frame_raiseResync (c : Cause) (s : State) : Frame trapParts [.resync c, .spCancel] s (raiseResync c s) :=
  ((((frame_cause c s).trans (frame_emit (.resync c) _) (by decide)).trans (frame_spCancelOp _) (by decide)).trans
    (frame_scState .rsJoin _) (by decide)).mono (by decide)

theorem raiseResync_trapped (c : Cause) (s : State) : Trapped c (raiseResync c s) := ⟨rfl, rfl, rfl⟩

/-- The record of an answered command, by the command in progress (R230). -/
def cmdEvents (c : Cmd) (st : Status) : List Event :=
  match c with
  | .none => []
  | .opening => [.openCmd st]
  | .closing => [.closeCmd st]
  | .retrieveFrame => [.retrieveCmd st]
  | .snapshot => [.snapshotCmd st]

theorem frame_status (st : Status) (s : State) : Frame [.status] [] s { s with stat.status := st } := by
  refine ⟨fun p hp => ?_, traced_nil rfl⟩
  have h := same_refl p s
  cases p
  case status => simp at hp
  all_goals exact h

theorem frame_emitCmd (st : Status) (s : State) : Frame [.trace] (cmdEvents s.ctl.cmd st) s (emitCmd st s) := by
  unfold emitCmd
  split
  case h_1 hc => rw [hc]; exact (frame_refl s).mono (by decide)
  all_goals
    rename_i hc
    rw [hc]
    exact frame_emit _ s

/-- The command register is freed and the host gets its answer. -/
theorem frame_freed (st : Status) (s : State) :
    Frame [.cmd, .answers] [] s (answer st { s with ctl.cmd := .none }) := by
  refine ⟨fun p hp => ?_, traced_nil rfl⟩
  have h := same_refl p s
  cases p
  case cmd | answers => simp at hp
  all_goals exact h

theorem frame_respond (st : Status) (s : State) : Frame answerParts (cmdEvents s.ctl.cmd st) s (respond st s) := by
  have h := ((frame_status st s).trans (frame_emitCmd st _) (by decide)).trans (frame_freed st _) (by decide)
  rw [List.nil_append, List.append_nil] at h
  exact h.mono (by decide)

@[simp] theorem respond_answers (st : Status) (s : State) : (respond st s).out.answers = s.out.answers ++ [st] := by
  have h := (frame_emitCmd st { s with stat.status := st }).allBut .answers (by decide)
  change (emitCmd st { s with stat.status := st }).out.answers ++ [st] = _
  rw [h]

/-- `respond` answers the command (R230). -/
theorem respond_answered (st : Status) (s : State) : Answered st s (respond st s) :=
  ⟨by rw [respond_stat], by rw [respond_ctl], respond_answers st s⟩

/-! ### The end of a retrieval (R233) -/

/-- What stands in the trace for the end of a retrieval with the session open. -/
def endEvent (c : Cmd) (st : Status) : Event := if c = .retrieveFrame then .retrieveCmd st else .spCancel

theorem frame_snapshotClosing (st : Status) (s : State) : Frame [.dlArmed, .snapStatus, .snapPhase] [] s
    { s with tim.dlArmed := false, ctl.snapStatus := st, ctl.snapPhase := .closing } := by
  refine ⟨fun p hp => ?_, traced_nil rfl⟩
  have h := same_refl p s
  cases p
  case dlArmed | snapStatus | snapPhase => simp at hp
  all_goals exact h

theorem frame_endRetrieve_open (st : Status) (s : State) : Frame endParts [endEvent s.ctl.cmd st] s (endRetrieve st true s) := by
  by_cases hc : s.ctl.cmd = .retrieveFrame
  · have h := ((frame_dlArmed false s).trans (frame_scState .opened _) (by decide)).trans (frame_respond st _) (by decide)
    have hev : cmdEvents s.ctl.cmd st = [.retrieveCmd st] := by rw [hc]; rfl
    rw [endRetrieve_frame st true hc, endEvent, if_pos hc, ← hev]
    exact h.mono (qs := endParts) (by decide)
  · rw [endRetrieve_snapshot_open st s hc, endEvent, if_neg hc]
    exact (((frame_snapshotClosing st s).trans (frame_spCancelOp _) (by decide)).trans (frame_scState .clJoin _)
      (by decide)).mono (by decide)

theorem endRetrieve_endedOpen (st : Status) (s : State) : EndedOpen st s (endRetrieve st true s) := by
  refine ⟨?_, fun hc => ?_, fun hc => ?_⟩
  · by_cases hc : s.ctl.cmd = .retrieveFrame
    · rw [endRetrieve_frame st true hc, respond_tim]
    · rw [endRetrieve_snapshot_open st s hc]
      rfl
  · rw [endRetrieve_frame st true hc]
    simp [same]
  · rw [endRetrieve_snapshot_open st s (by rw [hc]; decide)]
    exact ⟨rfl, rfl, rfl, rfl, rfl, rfl, rfl⟩

/-- DEST is no part of what an answer or the end of a retrieval writes. -/
theorem readDest_congr {t : State} (h : t.dest = s.dest) (a : Nat) : readDest t a = readDest s a := by
  rw [readDest, h, readDest]

theorem ImageWritten.of_dest {v : State} (h : ImageWritten s t) (hd : v.dest = t.dest) : ImageWritten s v :=
  fun w hw => (readDest_congr hd w).trans (h w hw)

theorem readDest_writeImageOp_above (s : State) (a : Nat) (ha : 19200 ≤ a) :
    readDest (writeImageOp s) a = readDest s a := by
  rw [readDest_writeImageOp, if_neg (Nat.not_lt.mpr ha)]

end

/-! ### PF (R105, R140) -/

theorem pfMatchOp_iff (s : State) (b0 : Byte) :
    pfMatchOp s b0 = decide ((b0 &&& s.regs.padMask) = (s.regs.padPattern &&& s.regs.padMask)) := by
  rw [Bool.eq_iff_iff, decide_eq_true_eq]
  exact isPad_iff _ _ _

/-- A packet dropped by PF. -/
def padDropped (s : State) : State := emit (.pfDrop s.prod.curChunk s.prod.splitIdx) { s with out.pf := some true }

theorem frame_padDropped (s : State) :
    Frame [.outPf, .trace] [.pfDrop s.prod.curChunk s.prod.splitIdx] s (padDropped s) :=
  ((frame_putPf true s).trans (frame_emit _ _) (by decide)).mono (by decide)

/-- Settles O7: PF's test is the masked comparison; a match is the dropped packet's record, else nothing is traced. -/
theorem paddingIsMatchedAndDropped : Obligations.PaddingIsMatchedAndDropped := by
  unfold Obligations.PaddingIsMatchedAndDropped
  intro s
  have hdrop := frame_padDropped s
  refine ⟨fun b0 => ?_, fun hdr crc pay => ⟨padDropped s, rfl, rfl, hdrop.traced, hdrop.allBut⟩⟩
  simp only [← pfMatchOp_iff]
  cases hm : pfMatchOp s b0 with
  | true =>
    refine ⟨padDropped s, ?_, rfl, hdrop.traced, hdrop.allBut⟩
    change execPfMatch b0 s = _
    rw [execPfMatch, hm]
    rfl
  | false =>
    have hkeep := (frame_putPf false s).mono (qs := [.outPf, .trace]) (by decide)
    refine ⟨{ s with out.pf := some false }, ?_, rfl, hkeep.traced, hkeep.allBut⟩
    change execPfMatch b0 s = _
    rw [execPfMatch, hm]
    rfl

/-! ### FA.ACCEPT, computed (R160) -/

/-- SEGBUF copied at the end of a numbered pass (R164). -/
def passCopied (n : BitVec 6) (s : State) : State := if n = 59 ∧ 0 < s.fa.segOrd.toNat then segmentCopied s else s

/-- FA.ACCEPT of a payload of 160 bytes with `seg_ord` in its range. -/
def accepted (n : BitVec 6) (pay : List Byte) (s : State) : FaRes × State :=
  if n.toNat ≤ 59 ∧ n.toNat = nextPn s.fa.lastPn then
    match ordinalAfter n pay s.fa.segOrd with
    | .error d => (.sequenceError d, stored n pay s)
    | .ok o => (acceptResult n o, { passCopied n { stored n pay s with fa.segOrd := o } with fa.lastPn := some n })
  else (.sequenceError .outOfOrderPacket, s)

/-- The ordinal after part 3 stays in the range of R45 item 3. -/
theorem ordinalAfter_le {n : BitVec 6} {pay : List Byte} {o o' : BitVec 3} (ho : o.toNat ≤ 4)
    (h : ordinalAfter n pay o = .ok o') : o'.toNat ≤ 4 := by
  unfold ordinalAfter ordinalStep at h
  split at h
  · split at h
    · cases h
    · next h4 =>
      split at h
      · split at h
        · cases h
        · cases h
          rw [ordinal_toNat _ (Nat.not_lt.mp h4)]
          exact Nat.not_lt.mp h4
      · cases h; exact ho
  · cases h; exact ho

theorem copySegment_eq (n : BitVec 6) (s : State) (ho : n = 59 → s.fa.segOrd.toNat ≤ 4) :
    copySegment n s = .ok (passCopied n s) := by
  unfold copySegment passCopied
  split
  · next h59 =>
    have hle := ho h59.1
    refine (if_pos ?_ : memWrite .framebuf _ _ s = _)
    rw [readBytes_length]
    simp only [spaceSize, Config.segBytes, Config.frameBytes]
    omega
  · rfl

theorem acceptCore_eq (n : BitVec 6) (pay : List Byte) (s : State) (hlen : pay.length = 160)
    (ho : n = 59 → s.fa.segOrd.toNat ≤ 4) : acceptCore n pay s = .ok (accepted n pay s) := by
  by_cases hseq : n.toNat ≤ 59 ∧ n.toNat = nextPn s.fa.lastPn
  · have hstore : memWrite .segbuf (n.toNat * Config.payBytes) pay s = .ok (stored n pay s) :=
      if_pos (by simp only [spaceSize, Config.segBytes, Config.payBytes]; omega)
    rw [acceptCore, if_pos ((seqOk_iff _ _).mpr hseq), hstore, accepted, if_pos hseq]
    change (match ordinalAfter n pay s.fa.segOrd with
      | .error d => Except.ok (FaRes.sequenceError d, stored n pay s)
      | .ok o => match copySegment n { stored n pay s with fa.segOrd := o } with
        | .error f => .error f
        | .ok s2 => .ok (acceptResult n o, { s2 with fa.lastPn := some n })) = _
    cases hord : ordinalAfter n pay s.fa.segOrd with
    | error d => rfl
    | ok o =>
      have hcopy := copySegment_eq n { stored n pay s with fa.segOrd := o } fun h59 => ordinalAfter_le (ho h59) hord
      simp only [hcopy]
  · rw [acceptCore_of_outOfSequence hseq, accepted, if_neg hseq]

theorem exec_faAccept_eq (n : BitVec 6) (pay : List Byte) (s : State) (hlen : pay.length = 160)
    (ho : n = 59 → s.fa.segOrd.toNat ≤ 4) :
    exec (.faAccept n pay) s = .next (putFa (accepted n pay s).1 (accepted n pay s).2) :=
  exec_faAccept_of_core (acceptCore_eq n pay s hlen ho)

section
variable {n : BitVec 6} {pay : List Byte} {s : State}

theorem accepted_of_ok {o : BitVec 3} (hseq : n.toNat ≤ 59 ∧ n.toNat = nextPn s.fa.lastPn)
    (ho : ordinalAfter n pay s.fa.segOrd = .ok o) :
    accepted n pay s =
      (acceptResult n o, { passCopied n { stored n pay s with fa.segOrd := o } with fa.lastPn := some n }) := by
  rw [accepted, if_pos hseq, ho]

theorem accepted_of_error {d : FaDetail} (hseq : n.toNat ≤ 59 ∧ n.toNat = nextPn s.fa.lastPn)
    (ho : ordinalAfter n pay s.fa.segOrd = .error d) : accepted n pay s = (.sequenceError d, stored n pay s) := by
  rw [accepted, if_pos hseq, ho]

theorem accepted_of_ne (hseq : ¬ (n.toNat ≤ 59 ∧ n.toNat = nextPn s.fa.lastPn)) :
    accepted n pay s = (.sequenceError .outOfOrderPacket, s) := if_neg hseq

theorem ordinalAfter_of_ne (h : n ≠ 20) (o : BitVec 3) : ordinalAfter n pay o = .ok o := if_neg h

theorem passCopied_of_ne (h : n ≠ 59) (s : State) : passCopied n s = s := if_neg fun e => h e.1

theorem acceptResult_of_ne (h : n ≠ 59) (o : BitVec 3) : acceptResult n o = .incomplete := if_neg fun e => h e.1

/-! ### The bytes FA.ACCEPT writes (R162, R164) -/

theorem readByte_stored (n : BitVec 6) (pay : List Byte) (s : State) (a : Nat) :
    readByte (stored n pay s) .segbuf a =
      if n.toNat * 160 ≤ a ∧ a < n.toNat * 160 + pay.length then byteAt pay (a - n.toNat * 160)
      else readByte s .segbuf a :=
  readByte_withCells_cellsSet s .segbuf (n.toNat * 160) a pay

theorem stored_holds (n : BitVec 6) (pay : List Byte) (s : State) :
    HoldsBytes .segbuf (n.toNat * 160) pay (stored n pay s) := fun j hj => by
  rw [readByte_stored, if_pos (by omega), Nat.add_sub_cancel_left]

theorem stored_sameBytesBut (n : BitVec 6) (s : State) (hlen : pay.length = 160) :
    SameBytesBut .segbuf (n.toNat * 160) 160 s (stored n pay s) := fun a ha => by
  rw [readByte_stored, if_neg (by omega)]

theorem readByte_segmentCopied (s : State) (a : Nat) :
    readByte (segmentCopied s) .framebuf a =
      if (s.fa.segOrd.toNat - 1) * 9600 ≤ a ∧ a < (s.fa.segOrd.toNat - 1) * 9600 + 9600 then
        readByte s .segbuf (a - (s.fa.segOrd.toNat - 1) * 9600)
      else readByte s .framebuf a := by
  have h := readByte_withCells_cellsSet s .framebuf ((s.fa.segOrd.toNat - 1) * 9600) a (readBytes s .segbuf 0 9600)
  rw [readBytes_length] at h
  refine h.trans ?_
  split
  · next hin =>
    have hlt : a - (s.fa.segOrd.toNat - 1) * 9600 < (readBytes s .segbuf 0 9600).length := by
      rw [readBytes_length]
      omega
    rw [byteAt_of_lt _ _ hlt, readBytes_getElem, Nat.zero_add]
  · rfl

theorem frame_stored (n : BitVec 6) (pay : List Byte) (s : State) : Frame [.segbuf] [] s (stored n pay s) := by
  refine ⟨fun p hp => ?_, traced_nil rfl⟩
  have h := same_refl p s
  cases p
  case segbuf => simp at hp
  all_goals exact h

theorem frame_segmentCopied (s : State) : Frame [.framebuf] [] s (segmentCopied s) := by
  refine ⟨fun p hp => ?_, traced_nil rfl⟩
  have h := same_refl p s
  cases p
  case framebuf => simp at hp
  all_goals exact h

theorem frame_position (l : Option (BitVec 6)) (o : BitVec 3) (s : State) :
    Frame [.lastPn, .segOrd] [] s { s with fa.lastPn := l, fa.segOrd := o } := by
  refine ⟨fun p hp => ?_, traced_nil rfl⟩
  have h := same_refl p s
  cases p
  case lastPn | segOrd => simp at hp
  all_goals exact h

theorem frame_lastPn (l : Option (BitVec 6)) (s : State) : Frame [.lastPn] [] s { s with fa.lastPn := l } := by
  refine ⟨fun p hp => ?_, traced_nil rfl⟩
  have h := same_refl p s
  cases p
  case lastPn => simp at hp
  all_goals exact h

/-- A packet in sequence that neither carries an ordinal nor ends a pass (R165). -/
theorem accepted_plain (hseq : n.toNat ≤ 59 ∧ n.toNat = nextPn s.fa.lastPn) (h20 : n ≠ 20) (h59 : n ≠ 59) :
    accepted n pay s = (.incomplete, { stored n pay s with fa.lastPn := some n }) := by
  rw [accepted_of_ok hseq (ordinalAfter_of_ne h20 _), acceptResult_of_ne h59, passCopied_of_ne h59]
  rfl

end

/-- Settles O12: the payload's slot, `last_pn` and FA's output are all that is written. -/
theorem faAcceptStoresAPlainPacket : Obligations.FaAcceptStoresAPlainPacket := by
  unfold Obligations.FaAcceptStoresAPlainPacket
  intro s n pay hlen h59 hnext hne20 hne59
  have hexec := exec_faAccept_eq n pay s hlen fun h => absurd h hne59
  rw [accepted_plain ⟨h59, hnext⟩ hne20 hne59] at hexec
  have hframe := ((frame_stored n pay s).trans (frame_lastPn (some n) _) (by decide)).trans
    (frame_putFa .incomplete _) (by decide)
  exact ⟨_, hexec, rfl, rfl, stored_holds n pay s, stored_sameBytesBut n s hlen, hframe.traced,
    AllBut.mono hframe.allBut (by decide)⟩

/-! ### Packet 20 (R163) -/

theorem payOrd_toNat (pay : List Byte) : (payOrd pay).toNat = (byteAt pay 0).toNat / 16 := by
  have h := (byteAt pay 0).isLt
  simp only [payOrd, BitVec.extractLsb'_toNat, Nat.shiftRight_eq_div_pow]
  omega

section
variable {pay : List Byte} {s : State}

/-- Packet 20 in sequence, its ordinal rejected: only the slot is written. -/
theorem accepted_rejected {d : FaDetail} (hl : s.fa.lastPn = some 19)
    (ho : ordinalStep (payOrd pay) s.fa.segOrd = .error d) :
    accepted 20 pay s = (.sequenceError d, stored 20 pay s) :=
  accepted_of_error (by rw [hl]; decide) ho

/-- Packet 20 in sequence, its ordinal kept or adopted. -/
theorem accepted_adopted {o : BitVec 3} (hl : s.fa.lastPn = some 19)
    (ho : ordinalStep (payOrd pay) s.fa.segOrd = .ok o) :
    accepted 20 pay s = (.incomplete, { stored 20 pay s with fa.lastPn := some 20, fa.segOrd := o }) := by
  have hord : ordinalAfter 20 pay s.fa.segOrd = .ok o := ho
  rw [accepted_of_ok (by rw [hl]; decide) hord, acceptResult_of_ne (by decide), passCopied_of_ne (by decide)]

/-- What holds of packet 20 in every case: its slot is stored (R162, R166). -/
theorem accepted_twenty_stored (hl : s.fa.lastPn = some 19) (hlen : pay.length = 160) :
    HoldsBytes .segbuf 3200 pay (accepted 20 pay s).2 ∧ SameBytesBut .segbuf 3200 160 s (accepted 20 pay s).2 ∧
      Frame [.lastPn, .segOrd, .segbuf] [] s (accepted 20 pay s).2 := by
  have hstored := frame_stored 20 pay s
  cases ho : ordinalStep (payOrd pay) s.fa.segOrd with
  | error d =>
    rw [accepted_rejected hl ho]
    exact ⟨stored_holds 20 pay s, stored_sameBytesBut 20 s hlen, hstored.mono (by decide)⟩
  | ok o =>
    rw [accepted_adopted hl ho]
    exact ⟨stored_holds 20 pay s, stored_sameBytesBut 20 s hlen,
      (hstored.trans (frame_position (some 20) o _) (by decide)).mono (by decide)⟩

end

theorem ordinalStep_high {o : BitVec 4} (h : 4 < o.toNat) (so : BitVec 3) :
    ordinalStep o so = .error .invalidSegmentOrdinal := if_pos h

theorem ordinalStep_unexpected {o : BitVec 4} {so : BitVec 3} (h1 : 1 ≤ o.toNat) (h4 : o.toNat ≤ 4)
    (hne : o.toNat ≠ so.toNat + 1) : ordinalStep o so = .error .outOfOrderSegment := by
  rw [ordinalStep, if_neg (Nat.not_lt.mpr h4), if_pos (Nat.lt_of_succ_le h1), if_pos hne]

theorem ordinalStep_next {o : BitVec 4} {so : BitVec 3} (h1 : 1 ≤ o.toNat) (h4 : o.toNat ≤ 4)
    (heq : o.toNat = so.toNat + 1) : ordinalStep o so = .ok (o.setWidth 3) := by
  rw [ordinalStep, if_neg (Nat.not_lt.mpr h4), if_pos (Nat.lt_of_succ_le h1), if_neg (not_not.mpr heq)]

theorem ordinalStep_zero {o : BitVec 4} (h : o.toNat = 0) (so : BitVec 3) : ordinalStep o so = .ok so := by
  rw [ordinalStep, if_neg (by omega), if_neg (by omega)]

/-- Settles O13: the four ranges of the ordinal nibble, one row of R163's table each. -/
theorem faAcceptReadsTheOrdinalAtTwenty : Obligations.FaAcceptReadsTheOrdinalAtTwenty := by
  unfold Obligations.FaAcceptReadsTheOrdinalAtTwenty
  intro s pay hl hlen
  simp only [← payOrd_toNat]
  obtain ⟨hholds, hbut, hframe⟩ := accepted_twenty_stored hl hlen
  have hput := hframe.trans (frame_putFa (accepted 20 pay s).1 _) (by decide)
  refine ⟨_, exec_faAccept_eq 20 pay s hlen (fun h => absurd h (by decide)), hholds, hbut, AllBut.mono hput.allBut (by decide), _, rfl,
    hput.traced, fun h4 => ?_, fun h1 h4 hne => ?_, fun h1 h4 heq => ?_, fun h0 => ?_⟩
  · rw [accepted_rejected hl (ordinalStep_high h4 _)]
    exact ⟨rfl, rfl, rfl⟩
  · rw [accepted_rejected hl (ordinalStep_unexpected h1 h4 hne)]
    exact ⟨rfl, rfl, rfl⟩
  · rw [accepted_adopted hl (ordinalStep_next h1 h4 heq)]
    exact ⟨rfl, rfl, ordinal_toNat _ h4⟩
  · rw [accepted_adopted hl (ordinalStep_zero h0 _)]
    exact ⟨rfl, rfl, rfl⟩

/-! ### Packet 59 (R164) -/

section
variable {pay : List Byte} {s : State}

theorem accepted_last (hl : s.fa.lastPn = some 58) :
    accepted 59 pay s =
      (acceptResult 59 s.fa.segOrd, { passCopied 59 (stored 59 pay s) with fa.lastPn := some 59 }) :=
  accepted_of_ok (by rw [hl]; decide) (ordinalAfter_of_ne (by decide) _)

theorem acceptResult_last (o : BitVec 3) :
    acceptResult 59 o = if o.toNat = 4 then FaRes.complete else .incomplete := by
  have h : (59 : BitVec 6) = 59 ∧ o = 4 ↔ o.toNat = 4 :=
    (and_iff_right rfl).trans (toNat_eq_iff o 4 (by decide))
  exact if_congr h rfl rfl

theorem frame_passCopied (n : BitVec 6) (s : State) : Frame [.framebuf] [] s (passCopied n s) := by
  unfold passCopied
  split
  · exact frame_segmentCopied s
  · exact (frame_refl s).mono (by decide)

theorem readByte_segbuf_passCopied (n : BitVec 6) (s : State) (a : Nat) :
    readByte (passCopied n s) .segbuf a = readByte s .segbuf a :=
  (frame_passCopied n s).allBut .segbuf (by decide) a

theorem readByte_passCopied_inside {so a : Nat} (hso : s.fa.segOrd.toNat = so) (h1 : 1 ≤ so) (ha : a < 9600) :
    readByte (passCopied 59 s) .framebuf ((so - 1) * 9600 + a) = readByte s .segbuf a := by
  rw [passCopied, if_pos ⟨rfl, hso ▸ h1⟩, readByte_segmentCopied, hso, if_pos (by omega), Nat.add_sub_cancel_left]

theorem readByte_passCopied_outside {so a : Nat} (hso : s.fa.segOrd.toNat = so)
    (ha : so = 0 ∨ a < (so - 1) * 9600 ∨ (so - 1) * 9600 + 9600 ≤ a) :
    readByte (passCopied 59 s) .framebuf a = readByte s .framebuf a := by
  unfold passCopied
  split
  · next h => rw [readByte_segmentCopied, hso, if_neg (by omega)]
  · rfl

end

/-- Settles O14: the slot is stored first, then the whole of SEGBUF is copied to the region of `seg_ord`. -/
theorem faAcceptCopiesTheSegmentAtFiftyNine : Obligations.FaAcceptCopiesTheSegmentAtFiftyNine := by
  unfold Obligations.FaAcceptCopiesTheSegmentAtFiftyNine
  intro s pay hl hlen ho
  have hexec := exec_faAccept_eq 59 pay s hlen fun _ => ho
  rw [accepted_last hl, acceptResult_last] at hexec
  have hframe := (((frame_stored 59 pay s).trans (frame_passCopied 59 _) (by decide)).trans
    (frame_lastPn (some 59) _) (by decide)).trans
    (frame_putFa (if s.fa.segOrd.toNat = 4 then .complete else .incomplete) _) (by decide)
  have hseg := readByte_segbuf_passCopied 59 (stored 59 pay s)
  refine ⟨_, hexec, rfl, hframe.traced, rfl, fun j hj => ?_, fun a ha => ?_, fun h0 a => ?_, fun h1 => ⟨fun a ha => ?_,
    fun a ha => ?_⟩, AllBut.mono hframe.allBut (by decide)⟩
  · exact (hseg _).trans (stored_holds 59 pay s j hj)
  · exact (hseg a).trans (stored_sameBytesBut 59 s hlen a ha)
  · exact readByte_passCopied_outside (s := stored 59 pay s) rfl (.inl h0)
  · exact (readByte_passCopied_inside (s := stored 59 pay s) rfl h1 ha).trans (hseg a).symm
  · exact readByte_passCopied_outside (s := stored 59 pay s) rfl (.inr ha)

end Sys2Proof.Laws
end

section
/-!
PROOF. O17 to O21: what the packet classes and the results do. A class leaves PV's result on its output (`afterPv`); what
follows is the treatment of the result by SC (R234).
-/

namespace Sys2Proof.Laws

open Sys2Proof.Machine Sys2Proof.Safety

/-! ### Packets whose class decides (R142 to R144) -/

/-- The state with PV's result on its output, for an instruction that is a packet's class. -/
def afterPv (i : Instr) (s : State) : State :=
  match classResult i with
  | some r => putPv r s
  | none => s

section
variable {i : Instr} {s : State}

theorem afterPv_pv (i : Instr) (s : State) : (afterPv i s).out.pv = pvAfter i s := by
  unfold afterPv pvAfter
  cases classResult i <;> rfl

theorem afterPv_ctl (i : Instr) (s : State) : (afterPv i s).ctl = s.ctl := by
  unfold afterPv
  split <;> rfl

theorem frame_afterPv (i : Instr) (s : State) :
    Frame [.outPv, .trace] ((classResult i).toList.map Event.validate) s (afterPv i s) := by
  unfold afterPv
  cases classResult i with
  | some r => exact frame_putPv r s
  | none => exact (frame_refl s).mono (by decide)

theorem exec_fault {c : Cause} (hi : faultCause i = some c) : exec i s = .next (raiseInRetr c (afterPv i s)) := by
  cases i <;> cases hi <;> rfl

theorem exec_quietResult (hi : (∃ t crc pay, i = .blank t crc pay) ∨ i = .pvresDiscard ∨ i = .faresIncomplete) :
    exec i s = .next (afterPv i s) := by
  obtain ⟨t, crc, pay, rfl⟩ | rfl | rfl := hi
  all_goals rfl

theorem raiseInRetr_of_retr (c : Cause) (hs : s.ctl.scState = .retr) : raiseInRetr c s = raiseResync c s := if_pos hs

theorem raiseInRetr_of_ne (c : Cause) (hs : s.ctl.scState ≠ .retr) : raiseInRetr c s = s := if_neg hs

theorem treatFares_of_ne (r : FaRes) (hs : s.ctl.scState ≠ .retr) : treatFares r s = s := by
  cases r with
  | incomplete => rfl
  | complete => exact if_neg hs
  | sequenceError d => exact raiseInRetr_of_ne _ hs

theorem treatFares_complete (hs : s.ctl.scState = .retr) :
    treatFares .complete s = endRetrieve .ok true (writeImageOp s) := if_pos hs

end

/-- Settles O18: the class's result, then the entry of the resynchronisation. -/
theorem faultTakesTheTrap : Obligations.FaultTakesTheTrap := by
  unfold Obligations.FaultTakesTheTrap
  intro i c s hi hs
  have hexec : exec i s = .next (raiseResync c (afterPv i s)) := by
    rw [exec_fault hi, raiseInRetr_of_retr c (by rw [afterPv_ctl, hs])]
  have hframe := (frame_afterPv i s).trans (frame_raiseResync c _) (by decide)
  exact ⟨_, hexec, raiseResync_trapped c _, afterPv_pv i s, hframe.traced, AllBut.mono hframe.allBut (by decide)⟩

/-- Settles O19: only the class's result is put on PV's output. -/
theorem blankAndIncompleteChangeNothing : Obligations.BlankAndIncompleteChangeNothing := by
  unfold Obligations.BlankAndIncompleteChangeNothing
  intro i s hi
  have hframe := frame_afterPv i s
  exact ⟨_, exec_quietResult hi, afterPv_pv i s, hframe.traced, hframe.allBut⟩

/-- Settles O21: outside `S_RETR` neither a fault nor `Complete` reaches the controller (log 13). -/
theorem outsideRetrievalNoFaultIsRaised : Obligations.OutsideRetrievalNoFaultIsRaised := by
  unfold Obligations.OutsideRetrievalNoFaultIsRaised
  intro i s hi hs
  have hframe := frame_afterPv i s
  suffices hexec : exec i s = .next (afterPv i s) from ⟨_, hexec, afterPv_pv i s, hframe.allBut⟩
  rcases hi with hfault | rfl
  · obtain ⟨c, hc⟩ := Option.ne_none_iff_exists'.mp hfault
    rw [exec_fault hc, raiseInRetr_of_ne c (by rw [afterPv_ctl]; exact hs)]
  · exact congrArg _ (treatFares_of_ne .complete hs)

/-! ### Complete (R233, R234) -/

theorem frame_completed (s : State) :
    Frame (.dest :: endParts) [.writeImage, endEvent s.ctl.cmd .ok] s (endRetrieve .ok true (writeImageOp s)) :=
  ((frame_writeImageOp s).trans (frame_endRetrieve_open .ok _) (by decide)).mono (by decide)

theorem completed_dest (st : Status) (s : State) (a : Nat) :
    readDest (endRetrieve st true (writeImageOp s)) a = readDest (writeImageOp s) a :=
  (frame_endRetrieve_open st (writeImageOp s)).allBut .dest (by decide) a

theorem completed_imageWritten (st : Status) (s : State) : ImageWritten s (endRetrieve st true (writeImageOp s)) :=
  fun w hw => (completed_dest st s w).trans (writeImageOp_imageWritten s w hw)

theorem completed_dest_above (st : Status) (s : State) {a : Nat} (ha : 19200 ≤ a) :
    readDest (endRetrieve st true (writeImageOp s)) a = readDest s a :=
  (completed_dest st s a).trans (readDest_writeImageOp_above s a ha)

/-- Settles O20: the image is written, then the retrieval ends with the session open. -/
theorem completeWritesTheImageAndEnds : Obligations.CompleteWritesTheImageAndEnds := by
  unfold Obligations.CompleteWritesTheImageAndEnds
  intro s hs _
  have hframe := frame_completed s
  have hexec : exec .faresComplete s = .next (endRetrieve .ok true (writeImageOp s)) :=
    congrArg Host.Outcome.next (treatFares_complete hs)
  exact ⟨_, hexec, completed_imageWritten .ok s, fun a ha => completed_dest_above .ok s ha,
    endRetrieve_endedOpen .ok (writeImageOp s), hframe.traced, hframe.allBut⟩

/-! ### Data packets (R145, R234) -/

section
variable {n : BitVec 6} {pay : List Byte} {s u v : State}

theorem frame_accepted (n : BitVec 6) (pay : List Byte) (s : State) :
    Frame [.lastPn, .segOrd, .segbuf, .framebuf] [] s (accepted n pay s).2 := by
  have hstored := frame_stored n pay s
  unfold accepted
  split
  · split
    · exact hstored.mono (by decide)
    · next o _ =>
      have hord : Frame [.lastPn, .segOrd] [] (stored n pay s) { stored n pay s with fa.segOrd := o } :=
        frame_position s.fa.lastPn o (stored n pay s)
      exact (((hstored.trans hord (by decide)).trans (frame_passCopied n _) (by decide)).trans
        (frame_lastPn (some n) _) (by decide)).mono (by decide)
  · exact (frame_refl s).mono (by decide)

theorem passCopied_putPv (q : PvRes) (n : BitVec 6) (s : State) : passCopied n (putPv q s) = putPv q (passCopied n s) := by
  unfold passCopied
  split
  · next h => exact (if_pos h).symm ▸ rfl
  · next h => exact (if_neg h).symm ▸ rfl

/-- PV's output and the trace are not read by FA. -/
theorem accepted_putPv (q : PvRes) (n : BitVec 6) (pay : List Byte) (s : State) :
    accepted n pay (putPv q s) = ((accepted n pay s).1, putPv q (accepted n pay s).2) := by
  by_cases hseq : n.toNat ≤ 59 ∧ n.toNat = nextPn s.fa.lastPn
  · cases ho : ordinalAfter n pay s.fa.segOrd with
    | error d =>
      rw [accepted_of_error (s := putPv q s) hseq ho, accepted_of_error hseq ho]
      rfl
    | ok o =>
      rw [accepted_of_ok (s := putPv q s) hseq ho, accepted_of_ok hseq ho]
      exact congrArg (fun x : State => (acceptResult n o, { x with fa.lastPn := some n }))
        (passCopied_putPv q n { stored n pay s with fa.segOrd := o })
  · rw [accepted_of_ne (s := putPv q s) hseq, accepted_of_ne hseq]

/-- The two ways a data packet comes to FA: as a packet's class, with PV's result, or as PV's result alone. -/
theorem exec_dataPacket {i : Instr} (hi : dataPacket i = some (n, pay)) (s : State) :
    exec i s = outcome (acceptAndTreat n pay (putPv (.sequenceNumber n) s)) ∨
      (i = .pvresSequenceNumber n pay ∧ exec i s = outcome (acceptAndTreat n pay s)) := by
  cases i <;> cases hi
  case pvresSequenceNumber => exact .inr ⟨rfl, rfl⟩
  all_goals exact .inl rfl

theorem acceptAndTreat_eq (hlen : pay.length = 160) (ho : n = 59 → s.fa.segOrd.toNat ≤ 4) :
    acceptAndTreat n pay s = .ok (treatFares (accepted n pay s).1 (putFa (accepted n pay s).1 (accepted n pay s).2)) := by
  have hop := faAcceptOp_ok.mpr ⟨_, acceptCore_eq n pay s hlen ho, rfl⟩
  rw [acceptAndTreat, hop]
  rfl

/-- FA's result with PV's result beside it. -/
theorem putFa_putPv_allBut (r : FaRes) (q : PvRes) (s : State) :
    AllBut [.outPv, .trace] (putFa r s) (putFa r (putPv q s)) := fun p hp => by
  have h := same_refl p (putFa r s)
  cases p
  case outPv | trace => simp at hp
  all_goals exact h

/-- `EndedOpen` speaks of the command, the answers and four registers of the first state. -/
theorem EndedOpen.of_allBut {st : Status} {t : State} (h : AllBut [.outPv, .dest, .trace] u v) (he : EndedOpen st v t) :
    EndedOpen st u t := by
  obtain ⟨hdl, hframe, hsnap⟩ := he
  have hcmd : v.ctl.cmd = u.ctl.cmd := h .cmd (by decide)
  have hans : v.out.answers = u.out.answers := h .answers (by decide)
  have hkept (p : Part) (hp : p ∉ [Part.outPv, .dest, .trace]) (hvt : same p v t) : same p u t :=
    same_trans (h p hp) hvt
  rw [hcmd, hans] at hframe
  rw [hcmd] at hsnap
  refine ⟨hdl, fun hc => ?_, fun hc => ?_⟩
  · obtain ⟨hs, hf, hst, ha, h1, h2, h3⟩ := hframe hc
    exact ⟨hs, hf, hst, ha, hkept _ (by decide) h1, hkept _ (by decide) h2, hkept _ (by decide) h3⟩
  · obtain ⟨hs, hst, hp, hca, h1, h2, h3⟩ := hsnap hc
    exact ⟨hs, hst, hp, hca, hkept _ (by decide) h1, hkept _ (by decide) h2, hkept _ (by decide) h3⟩

/-- What O17 says of FA's state `u` and the state `t` after the treatment of FA's result `r`, but for PV's output. -/
def Treated (r : FaRes) (u t : State) : Prop :=
  (r = .incomplete → AllBut [.outPv, .trace] u t) ∧
    (∀ d, r = .sequenceError d → u.ctl.scState = .retr →
      Trapped (causeOfDetail d) t ∧ AllBut (.outPv :: trapParts) u t) ∧
    (r = .complete → u.ctl.scState = .retr →
      ImageWritten u t ∧ EndedOpen .ok u t ∧ (∀ a, 19200 ≤ a → readDest t a = readDest u a) ∧
        AllBut (.outPv :: .dest :: endParts) u t) ∧
    (u.ctl.scState ≠ .retr → AllBut [.outPv, .trace] u t)

theorem treatFares_treated (r : FaRes) (h : AllBut [.outPv, .trace] u v) : Treated r u (treatFares r v) := by
  have hsc : v.ctl.scState = u.ctl.scState := h .scState (by decide)
  refine ⟨fun hr => ?_, fun d hr hs => ?_, fun hr hs => ?_, fun hs => ?_⟩
  · rw [hr]
    exact h
  · have htrap : treatFares r v = raiseResync (causeOfDetail d) v := by
      rw [hr]
      exact raiseInRetr_of_retr _ (hsc.trans hs)
    rw [htrap]
    exact ⟨raiseResync_trapped _ v, AllBut.mono (AllBut.trans h (frame_raiseResync _ v).allBut) (by decide)⟩
  · rw [hr, treatFares_complete (hsc.trans hs)]
    have hfb := h .framebuf (by decide)
    have hd := h .dest (by decide)
    refine ⟨fun w hw => ?_, EndedOpen.of_allBut (AllBut.mono h (by decide)) (endRetrieve_endedOpen .ok (writeImageOp v)),
      fun a ha => (completed_dest_above .ok v ha).trans (hd a),
      AllBut.mono (AllBut.trans h (frame_completed v).allBut) (by decide)⟩
    rw [completed_imageWritten .ok v w hw, hfb, hfb]
  · rw [treatFares_of_ne r fun e => hs (hsc ▸ e)]
    exact h

theorem treatFares_outPv (r : FaRes) (s : State) : (treatFares r s).out.pv = s.out.pv := by
  unfold treatFares
  split
  · rfl
  · split
    · exact (frame_completed s).allBut .outPv (by decide)
    · rfl
  · unfold raiseInRetr
    split
    · exact (frame_raiseResync _ s).allBut .outPv (by decide)
    · rfl

end

/-- A data packet is accepted by FA and the result treated, with PV's result on its output where the packet's class gave
it. -/
theorem exec_dataPacket_treats {i : Instr} {n : BitVec 6} {pay : List Byte} {s : State}
    (hi : dataPacket i = some (n, pay)) (hlen : pay.length = 160) (ho : s.fa.segOrd.toNat ≤ 4) :
    ∃ v, exec i s = .next (treatFares (accepted n pay s).1 v) ∧
      AllBut [.outPv, .trace] (putFa (accepted n pay s).1 (accepted n pay s).2) v ∧
      ((∀ m p, i ≠ .pvresSequenceNumber m p) → v.out.pv = some (.sequenceNumber n)) := by
  obtain hexec | ⟨hpv, hexec⟩ := exec_dataPacket hi s
  · rw [acceptAndTreat_eq (s := putPv (.sequenceNumber n) s) hlen fun _ => ho, accepted_putPv] at hexec
    exact ⟨_, hexec, putFa_putPv_allBut _ _ _, fun _ => rfl⟩
  · rw [acceptAndTreat_eq hlen fun _ => ho] at hexec
    exact ⟨_, hexec, fun p _ => same_refl p _, fun h => absurd hpv (h _ _)⟩

/-- Settles O17: FA accepts the packet whatever stands on PV's output, and `Treated` says what SC then does. -/
theorem dataPacketIsAcceptedAndTreated : Obligations.DataPacketIsAcceptedAndTreated := by
  unfold Obligations.DataPacketIsAcceptedAndTreated
  intro i n pay s hi hlen ho
  have hframe := (frame_accepted n pay s).allBut
  have hsc : (putFa (accepted n pay s).1 (accepted n pay s).2).ctl.scState = s.ctl.scState :=
    hframe .scState (by decide)
  have hdest (a : Nat) : readDest (putFa (accepted n pay s).1 (accepted n pay s).2) a = readDest s a :=
    hframe .dest (by decide) a
  obtain ⟨v, hexec, hv, hpv⟩ := exec_dataPacket_treats hi hlen ho
  obtain ⟨hinc, herr, hdone, hout⟩ := treatFares_treated (accepted n pay s).1 hv
  simp only [hsc, hdest] at herr hdone hout
  exact ⟨_, exec_faAccept_eq n pay s hlen fun _ => ho, _, rfl, _, hexec, fun h => (treatFares_outPv _ v).trans (hpv h),
    hinc, herr, fun hr hs _ => hdone hr hs, hout⟩

end Sys2Proof.Laws
end

section
/-!
PROOF. O22 to O30: RB, SP and FQ. One frame for each operation, and one equation for each row of SP.SPLIT (R192, R198).
-/

namespace Sys2Proof.Laws

open Sys2Proof.Machine Sys2Proof.Safety

/-! ### The frames of the operations (R43) -/

section
variable {s t u : State}

theorem frame_pState (p : PState) (s : State) : Frame [.pState] [] s { s with prod.pState := p } := by
  refine ⟨fun q hq => ?_, traced_nil rfl⟩
  have h := same_refl q s
  cases q
  case pState => simp at hq
  all_goals exact h

theorem frame_splitIdx (k : Nat) (s : State) : Frame [.splitIdx] [] s { s with prod.splitIdx := k } := by
  refine ⟨fun q hq => ?_, traced_nil rfl⟩
  have h := same_refl q s
  cases q
  case splitIdx => simp at hq
  all_goals exact h

theorem frame_request (r : TrRequest) (s : State) : Frame [.requests] [] s (request r s) := by
  refine ⟨fun q hq => ?_, traced_nil rfl⟩
  have h := same_refl q s
  cases q
  case requests => simp at hq
  all_goals exact h

theorem frame_drawn (s : State) : Frame [.trIn, .draws] [] s (drawn s) := by
  refine ⟨fun q hq => ?_, traced_nil rfl⟩
  have h := same_refl q s
  cases q
  case trIn | draws => simp at hq
  all_goals exact h

theorem frame_chunkFilled (bs : List Byte) (s : State) : Frame [.arena] [] s (chunkFilled bs s) := by
  refine ⟨fun q hq => ?_, traced_nil rfl⟩
  have h := same_refl q s
  cases q
  case arena => simp at hq
  all_goals exact h

theorem frame_takeChunk (s : State) :
    Frame [.curChunk, .wrIdx, .pState, .trace] [.nextChunk s.ring.wrIdx] s (takeChunk s) := by
  refine ⟨AllBut.emit (fun q hq => ?_) (by decide) _, rfl⟩
  have h := same_refl q s
  cases q
  case curChunk | wrIdx | pState => simp at hq
  all_goals exact h

theorem frame_enqueued (d : Desc) (s : State) :
    Frame [.queue, .refcnt, .trace] [.enq d.chunk d.slot] s (enqueued d s) := by
  refine ⟨AllBut.emit (fun q hq => ?_) (by decide) _, rfl⟩
  have h := same_refl q s
  cases q
  case queue | refcnt => simp at hq
  all_goals exact h

theorem frame_dequeued (s : State) :
    Frame [.queue, .refcnt, .outDeq, .trace] [.deq (qGet s s.queue.head).chunk (qGet s s.queue.head).slot] s
      (dequeued s) := by
  refine ⟨AllBut.emit (fun q hq => ?_) (by decide) _, rfl⟩
  have h := same_refl q s
  cases q
  case queue | refcnt | outDeq => simp at hq
  all_goals exact h

theorem frame_fqFlushOp (s : State) : Frame [.queue, .refcnt, .pState, .trace] [.flush] s (fqFlushOp s) := by
  refine ⟨AllBut.emit (fun q hq => ?_) (by decide) _, rfl⟩
  have h := same_refl q s
  cases q
  case queue | refcnt | pState => simp at hq
  all_goals exact h

theorem frame_spStartOp (s : State) : Frame startParts [.spStart] s (spStartOp s) := by
  refine ⟨AllBut.emit (fun q hq => ?_) (by decide) _, rfl⟩
  have h := same_refl q s
  cases q
  case cancel | wrIdx | refcnt | queue | splitIdx | pState => exact absurd (by decide) hq
  all_goals exact h

theorem frame_exitOnCancel (s : State) : Frame [.pState, .trace] [.spExit .cancel] s (exitOnCancel s) :=
  ((frame_pState .doneCancel s).trans (frame_emit _ _) (by decide)).mono (by decide)

/-! ### What FQ holds after an operation -/

theorem enqueued_enqueued (d : Desc) (hc : s.queue.count < s.cfg.qcap)
    (ht : s.queue.tail = (s.queue.head + s.queue.count) % s.cfg.qcap) : Enqueued d s (enqueued d s) :=
  ⟨queued_enqueued d s hc ht, rfl, rfl, rfl, by rw [refGet_enqueued, if_pos rfl],
    fun c hne => by rw [refGet_enqueued, if_neg hne]⟩

theorem dequeued_dequeued (hc : 0 < s.queue.count) (hh : s.queue.head < s.cfg.qcap) :
    Dequeued (qGet s s.queue.head) s (dequeued s) :=
  ⟨queued_dequeued s hc hh, rfl, rfl, rfl, Nat.sub_add_cancel hc,
    fun h1 => by rw [refGet_dequeued, if_pos rfl, Nat.sub_add_cancel h1],
    fun c hne => by rw [refGet_dequeued, if_neg hne]⟩

theorem queueCleared_fqFlushOp (s : State) : QueueCleared s (fqFlushOp s) :=
  ⟨rfl, rfl, rfl, rfl, fun _ => rfl, fun _ => rfl⟩

theorem started_spStartOp (s : State) : Started s (spStartOp s) :=
  ⟨rfl, rfl, rfl, rfl, rfl, rfl, rfl, rfl, fun _ => rfl, fun _ => rfl⟩

theorem terminated_of (h : s.prod.pState = .idle ∨ s.prod.pState = .doneCancel ∨ s.prod.pState = .doneFail) :
    producerTerminated s = true := (terminated_iff s).mpr (or_assoc.mp h.symm)

/-- FQ stays cleared through what does not write it. -/
theorem QueueCleared.congr {v : State} (h : QueueCleared s t) (hs : same .queue u s) (hq : same .queue t v)
    (hr : same .refcnt t v) : QueueCleared u v := by
  obtain ⟨-, hh, ht, hc, href, hget⟩ := h
  obtain ⟨-, -, -, hsget⟩ := hs
  obtain ⟨hvh, hvt, hvc, hvget⟩ := hq
  exact ⟨queued_eq_nil (hvc.trans hc), hvh.trans hh, hvt.trans ht, hvc.trans hc, fun c => (hr c).trans (href c),
    fun e => (hvget e).trans ((hget e).trans (hsget e))⟩

/-- What a start of the producer gives is kept by what writes none of it. -/
theorem Started.congr {v : State} {ps : List Part} (h : Started s t) (hs : same .queue u s) (hv : AllBut ps t v)
    (hps : ∀ p ∈ ([.cancel, .wrIdx, .splitIdx, .pState, .queue, .refcnt] : List Part), p ∉ ps) : Started u v := by
  obtain ⟨hca, hw, hi, hp, hq⟩ := h
  have hkept (p : Part) (hin : p ∈ ([.cancel, .wrIdx, .splitIdx, .pState, .queue, .refcnt] : List Part)) : same p t v :=
    hv p (hps p hin)
  exact ⟨Eq.trans (hkept .cancel (by decide)) hca, Eq.trans (hkept .wrIdx (by decide)) hw,
    Eq.trans (hkept .splitIdx (by decide)) hi, Eq.trans (hkept .pState (by decide)) hp,
    QueueCleared.congr hq hs (hkept .queue (by decide)) (hkept .refcnt (by decide))⟩

end

/-! ### Transfers (R61, R191) -/

section
variable {s : State}

/-- The registers of the producer that the end of a transfer writes. -/
theorem frame_transferred (s : State) :
    Frame [.arena, .splitIdx, .pState, .trIn, .draws, .requests, .trace] [.xfer s.prod.curChunk true] s
      (transferred s) := by
  have hprod := ((frame_chunkFilled (rxBytes s (chunkBytes s.cfg)) s).trans (frame_splitIdx 0 _) (by decide)).trans
    (frame_pState .split _) (by decide)
  have hrequest := (hprod.trans (frame_drawn _) (by decide)).trans
    (frame_request (.transfer (chunkBytes s.cfg)) _) (by decide)
  exact (hrequest.trans (frame_emit (.xfer s.prod.curChunk true) _) (by decide)).mono (by decide)

theorem frame_transferLost (s : State) :
    Frame [.arena, .pState, .trIn, .draws, .requests, .trace]
      [.xfer s.prod.curChunk false, .spExit .transferFailure] s (transferLost s) := by
  have hprod := (frame_chunkFilled (failedBytes s (chunkBytes s.cfg)) s).trans (frame_pState .doneFail _) (by decide)
  have hrequest := (hprod.trans (frame_drawn _) (by decide)).trans
    (frame_request (.transfer (chunkBytes s.cfg)) _) (by decide)
  exact ((hrequest.trans (frame_emit (.xfer s.prod.curChunk false) _) (by decide)).trans
    (frame_emit (.spExit .transferFailure) _) (by decide)).mono (by decide)

theorem readByte_chunkFilled (bs : List Byte) (s : State) (a : Nat) :
    readByte (chunkFilled bs s) .arena a =
      if s.prod.curChunk * (s.cfg.p * 164) ≤ a ∧ a < s.prod.curChunk * (s.cfg.p * 164) + bs.length then
        byteAt bs (a - s.prod.curChunk * (s.cfg.p * 164))
      else readByte s .arena a :=
  readByte_withCells_cellsSet s .arena (s.prod.curChunk * (s.cfg.p * 164)) a bs

theorem chunkFilled_holds (bs : List Byte) (s : State) :
    HoldsBytes .arena (s.prod.curChunk * (s.cfg.p * 164)) bs (chunkFilled bs s) := fun j hj => by
  rw [readByte_chunkFilled, if_pos (by omega), Nat.add_sub_cancel_left]

theorem chunkFilled_sameBytesBut {bs : List Byte} (hlen : bs.length = s.cfg.p * 164) :
    SameBytesBut .arena (s.prod.curChunk * (s.cfg.p * 164)) (s.cfg.p * 164) s (chunkFilled bs s) := fun a ha => by
  rw [readByte_chunkFilled, hlen, if_neg (by omega)]

theorem exec_spTransfer_ok (hp : s.prod.pState = .xfer) (hc : s.prod.curChunk < s.cfg.n) (ha : (answerOf s).ok = true) :
    exec .spTransfer s = .next (transferred s) := by
  change execSpTransfer s = _
  rw [execSpTransfer, if_pos hp, if_pos ha, transferOk_eq s hc]
  rfl

theorem exec_transferFail {i : Instr} (hi : i = .spTransfer ∨ i = .spExit .transferFailure)
    (hp : s.prod.pState = .xfer) (hc : s.prod.curChunk < s.cfg.n) (ha : (answerOf s).ok = false) :
    exec i s = .next (transferLost s) := by
  obtain rfl | rfl := hi
  · change execSpTransfer s = _
    rw [execSpTransfer, if_pos hp, if_neg (by rw [ha]; decide), transferFail_eq s hc]
    rfl
  · change execSpExit .transferFailure s = _
    exact (if_pos ⟨hp, ha⟩).trans (by rw [transferFail_eq s hc]; rfl)

end

/-- Settles O23: the chunk is filled with the answer's bytes. -/
theorem transferFillsTheChunk : Obligations.TransferFillsTheChunk := by
  unfold Obligations.TransferFillsTheChunk
  intro s hp hc ha
  have hframe := frame_transferred s
  have hread (a : Nat) : readByte (transferred s) .arena a =
      readByte (chunkFilled (rxBytes s (chunkBytes s.cfg)) s) .arena a := rfl
  refine ⟨_, exec_spTransfer_ok hp hc ha, fun hlen j hj => ?_, fun a hout => ?_, rfl, rfl, rfl, ⟨rfl, rfl⟩, hframe.traced,
    hframe.allBut⟩
  · have hrx : rxBytes s (chunkBytes s.cfg) = (answerOf s).data := rxBytes_scripted s _ hlen
    exact (hread _).trans (by rw [hrx]; exact chunkFilled_holds _ s j hj)
  · exact (hread a).trans (chunkFilled_sameBytesBut (rxBytes_length s _) a hout)

/-- Settles O24: the chunk's bytes are unspecified after a failed transfer, the rest of ARENA is as it was. -/
theorem failedTransferEndsTheProducer : Obligations.FailedTransferEndsTheProducer := by
  unfold Obligations.FailedTransferEndsTheProducer
  intro s i hi hp hc ha
  have hframe := frame_transferLost s
  exact ⟨_, exec_transferFail hi hp hc ha, fun a hout => chunkFilled_sameBytesBut (failedBytes_length s _) a hout, rfl,
    rfl, ⟨rfl, rfl⟩, hframe.traced, hframe.allBut⟩

/-! ### The rows of SP.SPLIT (R192, R198) -/

section
variable {s : State}

/-- A slice PF lets through goes to the queue. -/
theorem splitStep_kept (hi : s.prod.splitIdx < s.cfg.p) (hc : s.prod.curChunk < s.cfg.n) (hk : SliceKept s) :
    splitStep s = splitQueue s := by
  rw [splitStep, if_neg hi.ne, curFirstByte_eq s hc hi]
  simp only [(pfMatch_slice s).mpr hk, Bool.false_eq_true, if_false]

theorem splitStep_dropped (hi : s.prod.splitIdx < s.cfg.p) (hc : s.prod.curChunk < s.cfg.n) (hk : ¬ SliceKept s) :
    splitStep s = .ok (emit (.pfDrop s.prod.curChunk s.prod.splitIdx)
      { s with prod.splitIdx := s.prod.splitIdx + 1, out.pf := some true }) := by
  have hm := Bool.eq_true_of_not_eq_false fun h => hk ((pfMatch_slice s).mp h)
  rw [splitStep, if_neg hi.ne, curFirstByte_eq s hc hi]
  simp only [hm, if_true]

theorem splitQueue_cancelled (hc : s.prod.cancel = true) :
    splitQueue s = .ok (exitOnCancel { s with out.pf := some false }) := if_pos hc

theorem splitQueue_sent (hc : s.prod.cancel = false) (hq : s.queue.count < s.cfg.qcap)
    (hd : descOk s.cfg (curDesc s) = true) (ht : s.queue.tail < s.cfg.qcap) :
    splitQueue s =
      .ok { enqueued (curDesc s) s with prod.splitIdx := s.prod.splitIdx + 1, out.pf := some false } := by
  have hready : enqReady s = true := decide_eq_true hq
  rw [splitQueue, if_neg (by rw [hc]; decide), if_pos hready, fqEnqOp_eq _ s hd ht]

theorem splitQueue_waits (hc : s.prod.cancel = false) (hq : s.queue.count = s.cfg.qcap) : splitQueue s = .ok s := by
  have hready : enqReady s = false := decide_eq_false (by omega)
  rw [splitQueue, if_neg (by rw [hc]; decide), if_neg (by rw [hready]; decide)]

theorem exec_spSplit {t : State} (hp : s.prod.pState = .split) (h : splitStep s = .ok t) :
    exec .spSplit s = .next t := by
  change execSpSplit s = _
  rw [execSpSplit, if_pos hp, h]
  rfl

theorem exitAtSlice_kept (hi : s.prod.splitIdx < s.cfg.p) (hc : s.prod.curChunk < s.cfg.n) (hk : SliceKept s) :
    exitAtSlice s = .ok (exitOnCancel { s with out.pf := some false }) := by
  rw [exitAtSlice, if_neg hi.ne, curFirstByte_eq s hc hi]
  simp only [(pfMatch_slice s).mpr hk, Bool.false_eq_true, if_false]

theorem exec_spExit_acq (hc : s.prod.cancel = true) (hp : s.prod.pState = .acq) :
    exec (.spExit .cancel) s = .next (exitOnCancel s) := by
  change outcome (exitCancelStep s) = _
  rw [exitCancelStep, if_pos ⟨hc, hp⟩]
  rfl

theorem exec_spExit_split (hc : s.prod.cancel = true) (hp : s.prod.pState = .split) :
    exec (.spExit .cancel) s = outcome (exitAtSlice s) := by
  change outcome (exitCancelStep s) = _
  rw [exitCancelStep, if_neg fun h => by rw [hp] at h; exact absurd h.2 (by decide), if_pos ⟨hc, hp⟩]

/-- PF's output beside the producer's registers. -/
theorem frame_exitAtSlice (s : State) :
    Frame [.pState, .outPf, .trace] [.spExit .cancel] s (exitOnCancel { s with out.pf := some false }) :=
  ((frame_putPf false s).trans (frame_exitOnCancel _) (by decide)).mono (by decide)

theorem frame_splitEnded (s : State) :
    Frame [.pState, .trace] [.splitDone s.prod.curChunk] s
      (emit (.splitDone s.prod.curChunk) { s with prod.pState := .acq }) :=
  ((frame_pState .acq s).trans (frame_emit _ _) (by decide)).mono (by decide)

theorem frame_splitDropped (s : State) :
    Frame [.splitIdx, .outPf, .trace] [.pfDrop s.prod.curChunk s.prod.splitIdx] s
      (emit (.pfDrop s.prod.curChunk s.prod.splitIdx)
        { s with prod.splitIdx := s.prod.splitIdx + 1, out.pf := some true }) :=
  (((frame_splitIdx (s.prod.splitIdx + 1) s).trans (frame_putPf true _) (by decide)).trans (frame_emit _ _)
    (by decide)).mono (by decide)

theorem frame_splitSent (s : State) :
    Frame [.queue, .refcnt, .splitIdx, .outPf, .trace] [.enq s.prod.curChunk s.prod.splitIdx] s
      { enqueued (curDesc s) s with prod.splitIdx := s.prod.splitIdx + 1, out.pf := some false } :=
  (((frame_enqueued (curDesc s) s).trans (frame_splitIdx (s.prod.splitIdx + 1) _) (by decide)).trans
    (frame_putPf false _) (by decide)).mono (by decide)

end

/-- Settles O22: the step is enabled, and it is `takeChunk`. -/
theorem nextChunkHandsOutTheWriteIndex : Obligations.NextChunkHandsOutTheWriteIndex := by
  unfold Obligations.NextChunkHandsOutTheWriteIndex
  intro s hp hc hr
  have hframe := frame_takeChunk s
  exact ⟨_, if_pos ⟨hp, hc, hr⟩, rfl, rfl, rfl, hframe.traced, hframe.allBut⟩

/-- Settles O25: the first two rows of SP.SPLIT, before `cancel` is sampled. -/
theorem splitEndsAndDropsPadding : Obligations.SplitEndsAndDropsPadding := by
  unfold Obligations.SplitEndsAndDropsPadding
  intro s hp
  refine ⟨fun hi => ?_, fun hi hc hk => ?_⟩
  · have hframe := frame_splitEnded s
    exact ⟨_, exec_spSplit hp (if_pos hi), rfl, hframe.traced, hframe.allBut⟩
  · have hframe := frame_splitDropped s
    exact ⟨_, exec_spSplit hp (splitStep_dropped hi hc hk), rfl, rfl, hframe.traced, hframe.allBut⟩

/-- Settles O26: the slice's descriptor goes to the tail of FQ. -/
theorem splitEnqueuesTheSlice : Obligations.SplitEnqueuesTheSlice := by
  unfold Obligations.SplitEnqueuesTheSlice
  intro s hp hi hc hk hca hq hh ht
  have htail : s.queue.tail < s.cfg.qcap := ht ▸ Nat.mod_lt _ (Nat.zero_lt_of_lt hh)
  have hsent := splitQueue_sent hca hq (decide_eq_true ⟨hc, hi⟩) htail
  have hframe := frame_splitSent s
  exact ⟨_, exec_spSplit hp ((splitStep_kept hi hc hk).trans hsent), enqueued_enqueued (curDesc s) hq ht, rfl, rfl,
    hframe.traced, hframe.allBut⟩

/-- Settles O27: the two sample points of `cancel` (R197). -/
theorem cancelEndsTheProducer : Obligations.CancelEndsTheProducer := by
  unfold Obligations.CancelEndsTheProducer
  intro s hca
  refine ⟨fun hp => ?_, fun i hi hp hidx hc hk => ?_⟩
  · have hframe := frame_exitOnCancel s
    exact ⟨_, exec_spExit_acq hca hp, rfl, hframe.traced, hframe.allBut⟩
  · have hframe := frame_exitAtSlice s
    have hexec : exec i s = .next (exitOnCancel { s with out.pf := some false }) := by
      obtain rfl | rfl := hi
      · exact exec_spSplit hp ((splitStep_kept hidx hc hk).trans (splitQueue_cancelled hca))
      · rw [exec_spExit_split hca hp, exitAtSlice_kept hidx hc hk]
        rfl
    exact ⟨_, hexec, rfl, rfl, hframe.traced, hframe.allBut⟩

/-! ### FQ and the producer's start and stop (R193 to R197) -/

/-- Settles O28: the queue's law for ENQ. -/
theorem enqueueAppendsTheDescriptor : Obligations.EnqueueAppendsTheDescriptor := by
  unfold Obligations.EnqueueAppendsTheDescriptor
  intro s chunk slot hc hs hq hh ht
  have htail : s.queue.tail < s.cfg.qcap := ht ▸ Nat.mod_lt _ (Nat.zero_lt_of_lt hh)
  have hready : enqReady s = true := decide_eq_true hq
  have hexec : exec (.fqEnq chunk slot) s = .next (enqueued (descOperand chunk slot) s) := by
    change execFqEnq chunk slot s = _
    rw [execFqEnq, if_pos hready, fqEnqOp_eq _ s (decide_eq_true ⟨hc, hs⟩) htail]
    rfl
  have hframe := frame_enqueued (descOperand chunk slot) s
  exact ⟨_, hexec, enqueued_enqueued (descOperand chunk slot) hq ht, hframe.traced, hframe.allBut⟩

/-- Settles O29: the queue's law for DEQ; the entries of QSTORE stay. -/
theorem dequeueTakesTheOldest : Obligations.DequeueTakesTheOldest := by
  unfold Obligations.DequeueTakesTheOldest
  intro s hq hh
  have hvalid : deqValid s = true := decide_eq_true hq
  have hexec : exec .fqDeq s = .next (dequeued s) := by
    change execFqDeq s = _
    rw [execFqDeq, if_pos hvalid, fqDeqOp_eq s hh]
  have hframe := frame_dequeued s
  exact ⟨_, hexec, _, dequeued_dequeued hq hh, hframe.traced, fun _ => rfl, hframe.allBut⟩

/-- Settles O30: three operations with their frames. -/
theorem cancelFlushAndStart : Obligations.CancelFlushAndStart := by
  unfold Obligations.CancelFlushAndStart
  intro s
  refine ⟨?_, fun hp => ?_, fun hp ho => ?_⟩
  · have hframe := frame_spCancelOp s
    exact ⟨_, rfl, rfl, hframe.traced, hframe.allBut⟩
  · have hframe := frame_fqFlushOp s
    have hdone : producerTerminated s = true := terminated_of hp
    exact ⟨_, if_pos hdone, queueCleared_fqFlushOp s, rfl, hframe.traced, hframe.allBut⟩
  · have hframe := frame_spStartOp s
    exact ⟨_, if_pos ⟨hp, ho⟩, started_spStartOp s, hframe.traced, hframe.allBut⟩

end Sys2Proof.Laws
end

section
/-!
PROOF. O31 to O33, O35 to O41: the commands, the session, the turns of the retrieval loop and the resynchronisation
(R230 to R241).
-/

namespace Sys2Proof.Laws

open Sys2Proof.Machine Sys2Proof.Safety

/-! ### The frames of the controller's operations -/

section
variable {s : State}

theorem frame_cmd (c : Cmd) (s : State) : Frame [.cmd] [] s { s with ctl.cmd := c } := by
  refine ⟨fun q hq => ?_, traced_nil rfl⟩
  have h := same_refl q s
  cases q
  case cmd => simp at hq
  all_goals exact h

theorem frame_snapPhase (ph : SnapPhase) (s : State) : Frame [.snapPhase] [] s { s with ctl.snapPhase := ph } := by
  refine ⟨fun q hq => ?_, traced_nil rfl⟩
  have h := same_refl q s
  cases q
  case snapPhase => simp at hq
  all_goals exact h

theorem frame_snapStatus (st : Status) (s : State) : Frame [.snapStatus] [] s { s with ctl.snapStatus := st } := by
  refine ⟨fun q hq => ?_, traced_nil rfl⟩
  have h := same_refl q s
  cases q
  case snapStatus => simp at hq
  all_goals exact h

theorem frame_trOpen (b : Bool) (s : State) : Frame [.trOpen] [] s { s with ctl.trOpen := b } := by
  refine ⟨fun q hq => ?_, traced_nil rfl⟩
  have h := same_refl q s
  cases q
  case trOpen => simp at hq
  all_goals exact h

theorem frame_dlFired (b : Bool) (s : State) : Frame [.dlFired] [] s { s with tim.dlFired := b } := by
  refine ⟨fun q hq => ?_, traced_nil rfl⟩
  have h := same_refl q s
  cases q
  case dlFired => simp at hq
  all_goals exact h

theorem frame_boRunning (b : Bool) (s : State) : Frame [.boRunning] [] s { s with tim.boRunning := b } := by
  refine ⟨fun q hq => ?_, traced_nil rfl⟩
  have h := same_refl q s
  cases q
  case boRunning => simp at hq
  all_goals exact h

theorem frame_enterRetrieve (s : State) :
    Frame [.lastPn, .segOrd, .dlArmed, .dlFired, .scState, .trace] [.faReset] s (enterRetrieve s) :=
  ((((frame_faResetOp s).trans (frame_dlArmed true _) (by decide)).trans (frame_dlFired false _) (by decide)).trans
    (frame_scState .retr _) (by decide)).mono (by decide)

theorem frame_acceptOpen (s : State) : Frame [.cmd, .scState, .requests] [] s (acceptOpen s) :=
  (((frame_cmd .opening s).trans (frame_request (.connect s.cfg.connectArgs) _) (by decide)).trans
    (frame_scState .opConn _) (by decide)).mono (by decide)

theorem frame_acceptClose (s : State) : Frame [.cmd, .cancel, .scState, .trace] [.spCancel] s (acceptClose s) :=
  (((frame_cmd .closing s).trans (frame_spCancelOp _) (by decide)).trans (frame_scState .clJoin _) (by decide)).mono
    (by decide)

theorem frame_acceptRetrieve (s : State) :
    Frame [.cmd, .lastPn, .segOrd, .dlArmed, .dlFired, .scState, .trace] [.faReset] s (acceptRetrieve s) :=
  ((frame_cmd .retrieveFrame s).trans (frame_enterRetrieve _) (by decide)).mono (by decide)

theorem frame_acceptSnapshot (s : State) :
    Frame [.cmd, .snapPhase, .snapStatus, .scState, .requests] [] s (acceptSnapshot s) :=
  (((((frame_cmd .snapshot s).trans (frame_snapPhase .opening _) (by decide)).trans (frame_snapStatus .ok _)
    (by decide)).trans (frame_request (.connect s.cfg.connectArgs) _) (by decide)).trans (frame_scState .opConn _)
    (by decide)).mono (by decide)

/-! ### Commands at the port (R239, R241) -/

theorem present_of_allowed {code : BitVec 3} {accept : State → State} (hc : s.ctl.cmd = .none)
    (ha : AllowedPair code s.ctl.scState) : present code accept s = accept s := by
  rw [present, if_pos ((portReady_iff s).mpr hc), if_pos ((allowedCommand_iff code _).mpr ha)]

theorem present_of_busy {code : BitVec 3} {accept : State → State} (hc : s.ctl.cmd ≠ .none) :
    present code accept s = s := if_neg fun h => hc ((portReady_iff s).mp h)

theorem exec_command {code : BitVec 3} (hc : s.ctl.cmd = .none) (ha : AllowedPair code s.ctl.scState) :
    exec (commandOfCode code) s = .next (acceptOfCode code s) := by
  rw [exec_commandOfCode, present_of_allowed hc ha]

end

/-- Settles O31: each command with its operation's frame. -/
theorem commandsAreAccepted : Obligations.CommandsAreAccepted := by
  unfold Obligations.CommandsAreAccepted
  intro s hc
  refine ⟨fun hs => ⟨?_, ?_⟩, fun hs => ⟨?_, ?_⟩⟩
  · exact ⟨_, exec_command (code := 1) hc (.inl ⟨rfl, hs⟩), rfl, rfl, rfl, (frame_acceptOpen s).allBut⟩
  · exact ⟨_, exec_command (code := 4) hc (.inr (.inr (.inr ⟨rfl, hs⟩))), rfl, rfl, rfl, rfl, rfl,
      (frame_acceptSnapshot s).allBut⟩
  · have hframe := frame_acceptClose s
    exact ⟨_, exec_command (code := 2) hc (.inr (.inl ⟨rfl, hs⟩)), rfl, rfl, rfl, hframe.traced, hframe.allBut⟩
  · have hframe := frame_acceptRetrieve s
    exact ⟨_, exec_command (code := 3) hc (.inr (.inr (.inl ⟨rfl, hs⟩))), rfl, rfl, rfl, rfl, rfl, rfl, hframe.traced,
      hframe.allBut⟩

/-- Settles O35: the port is not ready. -/
theorem portNotReadyKeepsCommandsOut : Obligations.PortNotReadyKeepsCommandsOut := by
  unfold Obligations.PortNotReadyKeepsCommandsOut
  intro i code s hi hc
  obtain rfl | rfl := hi
  · rw [exec_commandOfCode, present_of_busy hc]
  · exact if_neg fun h => hc ((portReady_iff s).mp h.1)

/-! ### The session opens (R231, R236) -/

section
variable {s : State}

theorem frame_sessionStarted (s : State) :
    Frame (.trOpen :: .trIn :: .draws :: startParts) [.spStart] s (sessionStarted s) :=
  (((frame_drawn s).trans (frame_trOpen true _) (by decide)).trans (frame_spStartOp _) (by decide)).mono (by decide)

/-- A producer started on the connection, after what writes none of its registers. -/
theorem started_of_session {t : State} {ps : List Part} (h : AllBut ps (sessionStarted s) t)
    (hps : ∀ p ∈ ([.cancel, .wrIdx, .splitIdx, .pState, .queue, .refcnt] : List Part), p ∉ ps) : Started s t :=
  Started.congr (started_spStartOp { drawn s with ctl.trOpen := true }) ⟨rfl, rfl, rfl, fun _ => rfl⟩ h hps

/-- The session's state with OPEN answered. -/
def openAnswered (s : State) : State := respond .ok { sessionStarted s with ctl.scState := .opened }

/-- The answer to a connect that failed. -/
def connectRefused (s : State) : State := respond .errTransport { drawn s with ctl.scState := .closed }

theorem openConnect_ok (ha : (answerOf s).ok = true) : openConnect s = openAnswered s := if_pos ha

theorem openConnect_fail (ha : (answerOf s).ok = false) : openConnect s = connectRefused s :=
  if_neg (by rw [ha]; decide)

theorem snapshotConnect_ok (ha : (answerOf s).ok = true) :
    snapshotConnect s = enterRetrieve { sessionStarted s with ctl.snapPhase := .retr } := if_pos ha

theorem snapshotConnect_fail (ha : (answerOf s).ok = false) : snapshotConnect s = connectRefused s :=
  if_neg (by rw [ha]; decide)

/-- The last two operations of `openAnswered`. -/
theorem frame_openAnswered_tail (s : State) :
    Frame (.scState :: answerParts) (cmdEvents s.ctl.cmd .ok) (sessionStarted s) (openAnswered s) :=
  ((frame_scState .opened (sessionStarted s)).trans (frame_respond .ok _) (by decide)).mono (by decide)

theorem frame_openAnswered (s : State) :
    Frame (.trOpen :: .scState :: .trIn :: .draws :: startParts ++ answerParts) (.spStart :: cmdEvents s.ctl.cmd .ok) s
      (openAnswered s) :=
  ((frame_sessionStarted s).trans (frame_openAnswered_tail s) (by decide)).mono (by decide)

theorem frame_connectRefused (s : State) :
    Frame (.scState :: .trIn :: .draws :: answerParts) (cmdEvents s.ctl.cmd .errTransport) s (connectRefused s) :=
  (((frame_drawn s).trans (frame_scState .closed _) (by decide)).trans (frame_respond .errTransport _) (by decide)).mono
    (by decide)

theorem connectRefused_scState (s : State) : (connectRefused s).ctl.scState = .closed := by
  rw [connectRefused, respond_ctl]

theorem connectRefused_drawn (s : State) : Drawn s (connectRefused s) :=
  have h := (frame_respond .errTransport { drawn s with ctl.scState := .closed }).allBut
  ⟨h .trIn (by decide), h .draws (by decide)⟩

theorem connectRefused_answered (s : State) : Answered .errTransport s (connectRefused s) :=
  respond_answered .errTransport { drawn s with ctl.scState := .closed }

/-- The session's state with SNAPSHOT in its retrieving part. -/
def snapshotOpened (s : State) : State := enterRetrieve { sessionStarted s with ctl.snapPhase := .retr }

theorem frame_snapshotOpened_tail (s : State) :
    Frame [.snapPhase, .lastPn, .segOrd, .dlArmed, .dlFired, .scState, .trace] [.faReset] (sessionStarted s)
      (snapshotOpened s) :=
  ((frame_snapPhase .retr (sessionStarted s)).trans (frame_enterRetrieve _) (by decide)).mono (by decide)

theorem frame_snapshotOpened (s : State) :
    Frame (.trOpen :: .snapPhase :: .lastPn :: .segOrd :: .dlArmed :: .dlFired :: .scState :: .trIn :: .draws ::
      startParts) [.spStart, .faReset] s (snapshotOpened s) :=
  ((frame_sessionStarted s).trans (frame_snapshotOpened_tail s) (by decide)).mono (by decide)

theorem exec_scOpen (hs : s.ctl.scState = .opConn) (hc : s.ctl.cmd = .opening) :
    exec .scOpen s = .next (openConnect s) := if_pos ⟨hs, hc⟩

theorem exec_scSnapshot (hc : s.ctl.cmd = .snapshot) : exec .scSnapshot s = outcome (snapshotStep s) := if_pos hc

theorem exec_scSnapshot_opConn (hs : s.ctl.scState = .opConn) (hc : s.ctl.cmd = .snapshot) :
    exec .scSnapshot s = .next (snapshotConnect s) := by
  rw [exec_scSnapshot hc, snapshotStep, hs]
  rfl

theorem cmdEvents_of (st : Status) {c : Cmd} (hc : s.ctl.cmd = c) : cmdEvents s.ctl.cmd st = cmdEvents c st := by rw [hc]

end

/-- Settles O32: the two answers, each with the frames of its operations. -/
theorem connectOpensTheSession : Obligations.ConnectOpensTheSession := by
  unfold Obligations.ConnectOpensTheSession
  intro s hs
  refine ⟨fun hc => ⟨fun ha => ?_, fun ha => ?_⟩, fun hc => ⟨fun ha => ?_, fun ha => ?_⟩⟩
  · have htail := (frame_openAnswered_tail s).allBut
    have hframe := frame_openAnswered s
    rw [hc] at hframe
    refine ⟨openAnswered s, by rw [exec_scOpen hs hc, openConnect_ok ha], htail .trOpen (by decide),
      started_of_session htail (by decide), by rw [openAnswered, respond_ctl], respond_answered .ok _,
      ⟨htail .trIn (by decide), htail .draws (by decide)⟩, hframe.traced, hframe.allBut⟩
  · have hframe := frame_connectRefused s
    rw [hc] at hframe
    exact ⟨connectRefused s, by rw [exec_scOpen hs hc, openConnect_fail ha], connectRefused_scState s,
      connectRefused_answered s, connectRefused_drawn s, hframe.traced, hframe.allBut⟩
  · have hframe := frame_snapshotOpened s
    exact ⟨snapshotOpened s, by rw [exec_scSnapshot_opConn hs hc, snapshotConnect_ok ha]; rfl, rfl,
      started_of_session (frame_snapshotOpened_tail s).allBut (by decide), rfl, rfl, rfl, rfl, rfl, rfl, ⟨rfl, rfl⟩,
      hframe.traced, hframe.allBut⟩
  · have hframe := frame_connectRefused s
    rw [hc] at hframe
    exact ⟨connectRefused s, by rw [exec_scSnapshot_opConn hs hc, snapshotConnect_fail ha], connectRefused_scState s,
      connectRefused_answered s, connectRefused_drawn s, hframe.traced, hframe.allBut⟩

/-! ### The closing step (R232, R236) -/

section
variable {s : State}

/-- The transport is closed and FQ flushed, by the closing step and by the join of a resynchronisation. -/
def released (s : State) : State := fqFlushOp { request .close s with ctl.trOpen := false }

theorem frame_released (s : State) :
    Frame [.requests, .trOpen, .queue, .refcnt, .pState, .trace] [.flush] s (released s) :=
  (((frame_request .close s).trans (frame_trOpen false _) (by decide)).trans (frame_fqFlushOp _) (by decide)).mono
    (by decide)

theorem queueCleared_released (s : State) : QueueCleared s (released s) :=
  QueueCleared.congr (queueCleared_fqFlushOp { request .close s with ctl.trOpen := false })
    ⟨rfl, rfl, rfl, fun _ => rfl⟩ ⟨rfl, rfl, rfl, fun _ => rfl⟩ fun _ => rfl

/-- The status the closing step answers. -/
def closeStatus (s : State) : Status := if s.ctl.cmd = .closing then .ok else s.ctl.snapStatus

theorem closeJoin_eq (s : State) : closeJoin s = respond (closeStatus s) { released s with ctl.scState := .closed } := by
  unfold closeJoin closeStatus
  split <;> rfl

theorem frame_closeJoin_tail (s : State) :
    Frame (.scState :: answerParts) (cmdEvents s.ctl.cmd (closeStatus s)) (released s) (closeJoin s) := by
  rw [closeJoin_eq]
  exact ((frame_scState .closed (released s)).trans (frame_respond _ _) (by decide)).mono (by decide)

theorem frame_closeJoin (s : State) :
    Frame (.requests :: .trOpen :: .queue :: .refcnt :: .pState :: .scState :: answerParts)
      (.flush :: cmdEvents s.ctl.cmd (closeStatus s)) s (closeJoin s) :=
  ((frame_released s).trans (frame_closeJoin_tail s) (by decide)).mono (by decide)

theorem exec_closingTurn {i : Instr} (hi : ClosingTurn i s) (hs : s.ctl.scState = .clJoin)
    (hp : producerTerminated s = true) : exec i s = .next (closeJoin s) := by
  obtain rfl | ⟨rfl, hc⟩ := hi
  · exact if_pos ⟨hs, hp⟩
  · rw [exec_scSnapshot hc, snapshotStep, hs]
    exact congrArg Host.Outcome.next (if_pos hp)

/-- The record of the closing step's answer. -/
theorem cmdEvents_closing (st : Status) (hc : s.ctl.cmd = .closing ∨ s.ctl.cmd = .snapshot) :
    cmdEvents s.ctl.cmd st = [if s.ctl.cmd = .closing then .closeCmd st else .snapshotCmd st] := by
  obtain hc | hc := hc
  all_goals rw [hc]; rfl

end

/-- Settles O33: the transport is released, then the command answered. -/
theorem closingStepReleasesTheTransport : Obligations.ClosingStepReleasesTheTransport := by
  unfold Obligations.ClosingStepReleasesTheTransport
  intro i s hi hs hc hp
  have htail := (frame_closeJoin_tail s).allBut
  have hframe := frame_closeJoin s
  rw [cmdEvents_closing _ hc] at hframe
  have hanswered := respond_answered (closeStatus s) { released s with ctl.scState := .closed }
  rw [← closeJoin_eq] at hanswered
  exact ⟨closeJoin s, exec_closingTurn hi hs (terminated_of hp), htail .requests (by decide), htail .trOpen (by decide),
    QueueCleared.congr (queueCleared_released s) ⟨rfl, rfl, rfl, fun _ => rfl⟩ (htail .queue (by decide))
      (htail .refcnt (by decide)),
    htail .pState (by decide), by rw [closeJoin_eq, respond_ctl], hanswered, hframe.traced, hframe.allBut⟩

/-! ### The turns of the retrieval loop (R234) -/

section
variable {i : Instr} {s : State}

/-- The three forms of a turn are SC.CONSUME's step. -/
theorem exec_retrievalTurn (hi : RetrievalTurn i s) (hs : s.ctl.scState = .retr) :
    exec i s = outcome (consumeStep s) := by
  have hstep : retrievalStep s = consumeStep s := if_pos hs
  obtain rfl | ⟨rfl, hc⟩ | ⟨rfl, hc⟩ := hi
  · exact if_pos hs
  · exact (if_pos hc).trans (congrArg outcome hstep)
  · rw [exec_scSnapshot hc, snapshotStep, hs, hstep]

theorem consumeStep_timedOut (hd : s.tim.dlFired = true) :
    consumeStep s = .ok (endRetrieve .errTimeout true (emit (.consume .timeout) s)) := if_pos hd

theorem consumeStep_stopped (hd : s.tim.dlFired = false) (hp : s.prod.pState = .doneFail) :
    consumeStep s = .ok (raiseResync .pipelineStopped (emit (.consume .pipelineStopped) s)) := by
  rw [consumeStep, if_neg (by rw [hd]; decide), if_pos hp]

theorem consumeStep_packet (hd : s.tim.dlFired = false) (hp : s.prod.pState ≠ .doneFail) (hq : 0 < s.queue.count)
    (hh : s.queue.head < s.cfg.qcap) (hdesc : descOk s.cfg (qGet s s.queue.head) = true) :
    consumeStep s = consumePacket (readBytes s .arena (sliceAddr s.cfg (qGet s s.queue.head).chunk
      (qGet s s.queue.head).slot) 164) (dequeued (emit (.consume .packet) s)) := by
  have hdeq := fqDeqOp_eq (emit (.consume .packet) s) hh
  have hread := readSlice_eq (qGet s s.queue.head) (dequeued (emit (.consume .packet) s)) hdesc
  have hvalid : deqValid s = true := decide_eq_true hq
  rw [consumeStep, if_neg (by rw [hd]; decide), if_neg hp, if_pos hvalid, hdeq]
  change (match readSlice (qGet s s.queue.head) (dequeued (emit (.consume .packet) s)) with
    | .error f => Except.error f
    | .ok pkt => consumePacket pkt (dequeued (emit (.consume .packet) s))) = _
  rw [hread]
  rfl

theorem consumeStep_empty (hd : s.tim.dlFired = false) (hp : s.prod.pState ≠ .doneFail) (hq : s.queue.count = 0) :
    consumeStep s = .ok s := by
  have hvalid : deqValid s = false := decide_eq_false (by omega)
  rw [consumeStep, if_neg (by rw [hd]; decide), if_neg hp, if_neg (by rw [hvalid]; decide)]

end

/-- Settles O36: branch 0, before the queue is looked at. -/
theorem firedDeadlineEndsTheRetrieval : Obligations.FiredDeadlineEndsTheRetrieval := by
  unfold Obligations.FiredDeadlineEndsTheRetrieval
  intro i s hi hs _ hd
  have hexec := exec_retrievalTurn hi hs
  rw [consumeStep_timedOut hd] at hexec
  have hframe := ((frame_emit (.consume .timeout) s).trans (frame_endRetrieve_open .errTimeout _) (by decide)).mono
    (qs := endParts) (by decide)
  exact ⟨_, hexec, endRetrieve_endedOpen .errTimeout (emit (.consume .timeout) s), hframe.traced, hframe.allBut⟩

/-- Settles O37: branch 1, the entry of a resynchronisation. -/
theorem stoppedPipelineTakesTheTrap : Obligations.StoppedPipelineTakesTheTrap := by
  unfold Obligations.StoppedPipelineTakesTheTrap
  intro i s hi hs hd hp
  have hexec := exec_retrievalTurn hi hs
  rw [consumeStep_stopped hd hp] at hexec
  have hframe := ((frame_emit (.consume .pipelineStopped) s).trans (frame_raiseResync .pipelineStopped _)
    (by decide)).mono (qs := trapParts) (by decide)
  exact ⟨_, hexec, raiseResync_trapped _ _, hframe.traced, hframe.allBut⟩

/-- Settles O38: the dequeue, then the packet's class of the decode table on the state it leaves. -/
theorem packetTurnRunsThePacketsClass : Obligations.PacketTurnRunsThePacketsClass := by
  unfold Obligations.PacketTurnRunsThePacketsClass
  intro i s hi hs hd hp hq hh ho hchunk hslot
  have hdesc : descOk s.cfg (qGet s s.queue.head) = true := decide_eq_true ⟨hchunk, hslot⟩
  have hexec := exec_retrievalTurn hi hs
  obtain ⟨t, ht⟩ := consumeStep_total hh (fun _ => hdesc) ho
  rw [ht] at hexec
  rw [consumeStep_packet hd hp hq hh hdesc] at ht
  have hframe := ((frame_emit (.consume .packet) s).trans (frame_dequeued _) (by decide)).mono
    (qs := [.queue, .refcnt, .outDeq, .trace]) (by decide)
  refine ⟨dequeued (emit (.consume .packet) s), t, dequeued_dequeued (s := emit (.consume .packet) s) hq hh,
    hframe.traced, hframe.allBut, hexec, ?_⟩
  rw [exec_decodePv]
  exact congrArg outcome ht

/-! ### The resynchronisation (R235, R274, R275) -/

section
variable {i : Instr} {s : State}

/-- The three forms of a resynchronisation's step are SC.RESYNC's. -/
theorem exec_resyncTurn (hi : ResyncTurn i s)
    (hs : s.ctl.scState = .rsJoin ∨ s.ctl.scState = .rsBackoff ∨ s.ctl.scState = .rsConn) :
    exec i s = .next (resyncStep s) := by
  have hne : s.ctl.scState ≠ .retr := by obtain h | h | h := hs <;> rw [h] <;> decide
  have hstep : retrievalStep s = .ok (resyncStep s) := if_neg hne
  obtain rfl | ⟨rfl, hc⟩ | ⟨rfl, hc⟩ := hi
  · rfl
  · exact (if_pos hc).trans (congrArg outcome hstep)
  · have hsnap : snapshotStep s = retrievalStep s := by
      unfold snapshotStep
      obtain h | h | h := hs <;> rw [h]
    rw [exec_scSnapshot hc, hsnap, hstep]
    rfl

theorem frame_resyncJoin (s : State) :
    Frame [.requests, .trOpen, .queue, .refcnt, .pState, .lastPn, .segOrd, .boRunning, .scState, .trace]
      [.flush, .faReset] s (resyncJoin s) :=
  ((((frame_released s).trans (frame_faResetOp _) (by decide)).trans (frame_boRunning true _) (by decide)).trans
    (frame_scState .rsBackoff _) (by decide)).mono (by decide)

theorem frame_resyncConnect (s : State) : Frame [.requests, .scState] [] s (resyncConnect s) :=
  ((frame_request (.connect s.cfg.connectArgs) s).trans (frame_scState .rsConn _) (by decide)).mono (by decide)

theorem frame_resyncReturn_tail (s : State) :
    Frame [.scState, .trace] [.resyncEnd true] (sessionStarted s) (resyncReturn (drawn s)) :=
  ((frame_scState .retr (sessionStarted s)).trans (frame_emit (.resyncEnd true) _) (by decide)).mono (by decide)

theorem frame_resyncReturn (s : State) :
    Frame (.trOpen :: .scState :: .trIn :: .draws :: startParts) [.spStart, .resyncEnd true] s
      (resyncReturn (drawn s)) :=
  ((frame_sessionStarted s).trans (frame_resyncReturn_tail s) (by decide)).mono (by decide)

/-- The end of a retrieval with the session closed: RETRIEVE_FRAME keeps `snap_status`, SNAPSHOT stores the status in
it. -/
theorem frame_endRetrieve_closed (st : Status) (s : State) :
    Frame (.dlArmed :: .scState :: .snapStatus :: answerParts) (cmdEvents s.ctl.cmd st) s (endRetrieve st false s) := by
  have hdl := frame_dlArmed false s
  by_cases hc : s.ctl.cmd = .retrieveFrame
  · rw [endRetrieve_frame st false hc]
    exact ((hdl.trans (frame_scState .closed _) (by decide)).trans (frame_respond st _) (by decide)).mono (by decide)
  · rw [endRetrieve_closed_snapshot st hc]
    exact (((hdl.trans (frame_snapStatus st _) (by decide)).trans (frame_scState .closed _) (by decide)).trans
      (frame_respond st _) (by decide)).mono (by decide)

theorem endRetrieve_closed_fields (st : Status) (s : State) :
    (endRetrieve st false s).tim.dlArmed = false ∧ (endRetrieve st false s).ctl.scState = .closed ∧
      Answered st s (endRetrieve st false s) ∧
      (s.ctl.cmd = .retrieveFrame → same .snapStatus s (endRetrieve st false s)) ∧
      (s.ctl.cmd = .snapshot → (endRetrieve st false s).ctl.snapStatus = st) := by
  by_cases hc : s.ctl.cmd = .retrieveFrame
  · rw [endRetrieve_frame st false hc]
    refine ⟨by rw [respond_tim], by rw [respond_ctl]; rfl, respond_answered st _, fun _ => ?_, fun h => ?_⟩
    · change (respond st _).ctl.snapStatus = _
      rw [respond_ctl]
    · rw [hc] at h; cases h
  · rw [endRetrieve_closed_snapshot st hc]
    refine ⟨by rw [respond_tim], by rw [respond_ctl], respond_answered st _, fun h => absurd h hc, fun _ => ?_⟩
    rw [respond_ctl]

theorem frame_resyncFailed (s : State) :
    Frame (.dlArmed :: .scState :: .snapStatus :: .trIn :: .draws :: answerParts)
      (.resyncEnd false :: cmdEvents s.ctl.cmd .errReopen) s (resyncFailed (drawn s)) :=
  (((frame_drawn s).trans (frame_emit (.resyncEnd false) _) (by decide)).trans
    (frame_endRetrieve_closed .errReopen _) (by decide)).mono (by decide)

theorem resyncFailed_drawn (s : State) : Drawn s (resyncFailed (drawn s)) :=
  have h := (frame_endRetrieve_closed .errReopen (emit (.resyncEnd false) (drawn s))).allBut
  ⟨h .trIn (by decide), h .draws (by decide)⟩

/-- The record of the answer to a retrieval. -/
theorem cmdEvents_retrieving (st : Status) (hc : s.ctl.cmd = .retrieveFrame ∨ s.ctl.cmd = .snapshot) :
    cmdEvents s.ctl.cmd st = [if s.ctl.cmd = .retrieveFrame then .retrieveCmd st else .snapshotCmd st] := by
  obtain hc | hc := hc
  all_goals rw [hc]; rfl

theorem resyncStep_join (hs : s.ctl.scState = .rsJoin) (hp : producerTerminated s = true) :
    resyncStep s = resyncJoin s := by
  rw [resyncStep, hs]
  exact if_pos hp

theorem resyncStep_backoff (hs : s.ctl.scState = .rsBackoff) (hb : s.tim.boRunning = false) :
    resyncStep s = resyncConnect s := by
  rw [resyncStep, hs]
  exact if_neg (by rw [hb]; decide)

theorem resyncStep_ok (hs : s.ctl.scState = .rsConn) (ha : (answerOf s).ok = true) :
    resyncStep s = resyncReturn (drawn s) := by
  rw [resyncStep, hs]
  exact if_pos ha

theorem resyncStep_fail (hs : s.ctl.scState = .rsConn) (ha : (answerOf s).ok = false) :
    resyncStep s = resyncFailed (drawn s) := by
  rw [resyncStep, hs]
  exact if_neg (by rw [ha]; decide)

end

/-- Settles O39: the entry of the resynchronisation. -/
theorem resyncEntryWritesTheCause : Obligations.ResyncEntryWritesTheCause := by
  unfold Obligations.ResyncEntryWritesTheCause
  intro c s hc hs
  have hexec : exec (.scResync c) s = .next (raiseResync c s) :=
    (if_neg hc).trans (congrArg Host.Outcome.next (raiseInRetr_of_retr c hs))
  have hframe := frame_raiseResync c s
  exact ⟨_, hexec, raiseResync_trapped c s, hframe.traced, hframe.allBut⟩

/-- Settles O40: the four steps after the entry. -/
theorem resyncStepsInOrder : Obligations.ResyncStepsInOrder := by
  unfold Obligations.ResyncStepsInOrder
  intro i s hi hc
  refine ⟨fun hs hp => ?_, fun hs hb => ?_, fun hs ha => ?_, fun hs ha => ?_⟩
  · have hframe := frame_resyncJoin s
    have hcleared : QueueCleared s (resyncJoin s) :=
      QueueCleared.congr (queueCleared_released s) ⟨rfl, rfl, rfl, fun _ => rfl⟩ ⟨rfl, rfl, rfl, fun _ => rfl⟩
        fun _ => rfl
    exact ⟨resyncJoin s, by rw [exec_resyncTurn hi (.inl hs), resyncStep_join hs (terminated_of hp)], rfl, rfl, hcleared,
      rfl, rfl, rfl, rfl, rfl, hframe.traced, hframe.allBut⟩
  · exact ⟨resyncConnect s, by rw [exec_resyncTurn hi (.inr (.inl hs)), resyncStep_backoff hs hb], rfl, rfl,
      (frame_resyncConnect s).allBut⟩
  · have hframe := frame_resyncReturn s
    exact ⟨resyncReturn (drawn s), by rw [exec_resyncTurn hi (.inr (.inr hs)), resyncStep_ok hs ha], rfl,
      started_of_session (frame_resyncReturn_tail s).allBut (by decide), rfl, ⟨rfl, rfl⟩, hframe.traced, hframe.allBut⟩
  · have hframe := frame_resyncFailed s
    rw [cmdEvents_retrieving _ hc] at hframe
    obtain ⟨hdl, hsc, hans, hkept, hsnap⟩ :=
      endRetrieve_closed_fields .errReopen (emit (.resyncEnd false) (drawn s))
    exact ⟨resyncFailed (drawn s), by rw [exec_resyncTurn hi (.inr (.inr hs)), resyncStep_fail hs ha], hdl, hsc, hans,
      resyncFailed_drawn s, hkept, hsnap, hframe.traced, hframe.allBut⟩

theorem frame_fired (s : State) :
    Frame [.dlFired, .trace] [.dlFire] s (emit .dlFire { s with tim.dlFired := true }) :=
  ((frame_dlFired true s).trans (frame_emit .dlFire _) (by decide)).mono (by decide)

theorem frame_backoffEnded (s : State) :
    Frame [.boRunning, .trace] [.boEnd] s (emit .boEnd { s with tim.boRunning := false }) :=
  ((frame_boRunning false s).trans (frame_emit .boEnd _) (by decide)).mono (by decide)

/-- Settles O41: the two events. -/
theorem timerEventsSetTheirFlags : Obligations.TimerEventsSetTheirFlags := by
  unfold Obligations.TimerEventsSetTheirFlags
  intro s
  have hfire := frame_fired s
  have hend := frame_backoffEnded s
  exact ⟨fun ha hf => ⟨_, if_pos ⟨ha, hf⟩, rfl, hfire.traced, hfire.allBut⟩,
    fun hb => ⟨_, if_pos hb, rfl, hend.traced, hend.allBut⟩⟩

end Sys2Proof.Laws
end

section
/-!
PROOF. O5, O6, O42, O43, O52 to O55, O59, O60: the step, the reset, the waits, and what no instruction does.
-/

namespace Sys2Proof.Laws

open Sys2Proof.Machine Sys2Proof.Safety

/-! ### The step of a schedule's line (R10) -/

section
variable {s : State} {rest : List Line}

theorem step_of_line {l : Line} (h : s.env.sched = l :: rest) :
    step s = runFetched (fetch { s with env.sched := rest } l) { s with env.sched := rest } := by
  have hline : nextLine s = (l, { s with env.sched := rest }) := by rw [nextLine, h]
  rw [step, hline]

theorem step_of_code {c : Code} {i : Instr} (h : s.env.sched = .code c :: rest)
    (hd : decode s.regs.padMask s.regs.padPattern c = .ok i) : step s = exec i { s with env.sched := rest } := by
  have hfetch : fetch { s with env.sched := rest } (.code c) = .run i := by
    change (match decode s.regs.padMask s.regs.padPattern c with
      | .ok i => Fetched.run i
      | .error e => .bad e) = _
    rw [hd]
  rw [step_of_line h, hfetch]
  rfl

end

/-- Settles O5: the line's bytes are decoded and run; a word of the table is its code put first. -/
theorem stepRunsTheDecodedInstruction : Obligations.StepRunsTheDecodedInstruction := by
  unfold Obligations.StepRunsTheDecodedInstruction
  refine ⟨fun s c rest i h hd => step_of_code h hd, fun s nbits w i hm hp hw => ?_⟩
  unfold decodeTableWord at hw
  split at hw
  · cases hw
  · next c hc =>
    split at hw
    · next hd =>
      cases hw
      rw [State.withFetchWord, hc]
      exact step_of_code (s := { s with env.sched := .code c :: s.env.sched }) rfl (by rw [hm, hp]; exact hd)
    · cases hw

/-- Settles O6: the operation each position names. -/
theorem sequencersPerformTheStepTheyStandAt : Obligations.SequencersPerformTheStepTheyStandAt := by
  unfold Obligations.SequencersPerformTheStepTheyStandAt
  intro s rest
  refine ⟨fun h => ?_, fun h => ?_⟩
  · have hstep (o : Option Instr) (ho : producerOp { s with env.sched := rest } = o) :
        step s = runFetched (fetchOp o) { s with env.sched := rest } := by rw [step_of_line h, fetch, ho]
    refine ⟨fun hp hc => hstep (some .rbNextChunk) ?_, fun hp hc => hstep (some (.spExit .cancel)) ?_,
      fun hp => hstep (some .spTransfer) ?_, fun hp => hstep (some .spSplit) ?_, fun hp => hstep none ?_⟩
    · simp [producerOp, hp, hc]
    · simp [producerOp, hp, hc]
    · simp [producerOp, hp]
    · simp [producerOp, hp]
    · obtain hp | hp | hp := hp
      all_goals simp [producerOp, hp]
  · have hstep (o : Option Instr) (ho : consumerOp { s with env.sched := rest } = o) :
        step s = runFetched (fetchOp o) { s with env.sched := rest } := by rw [step_of_line h, fetch, ho]
    refine ⟨fun hs hc => hstep (some .scOpen) ?_, fun hs hc => hstep (some .scSnapshot) ?_,
      fun hs => hstep (some .scConsume) ?_, fun hs => hstep (some (.scResync .none)) ?_,
      fun hs => hstep (some .scClose) ?_, fun hs => hstep none ?_⟩
    · simp [consumerOp, hs, hc]
    · simp [consumerOp, hs, hc]
    · simp [consumerOp, hs]
    · obtain hs | hs | hs := hs
      all_goals simp [consumerOp, hs]
    · simp [consumerOp, hs]
    · obtain hs | hs := hs
      all_goals simp [consumerOp, hs]

/-! ### RESET (R44, R310) -/

/-- The registers' values after power-on, whatever the memories and DEST hold. -/
theorem resetValues_of_registers {t : State} (hfa : t.fa = Fa.reset) (hring : t.ring = Ring.reset)
    (hqueue : t.queue = Queue.reset) (hprod : t.prod = Prod.reset) (hctl : t.ctl = Ctl.reset) (htim : t.tim = Tim.reset)
    (hregs : t.regs = Regs.reset t.cfg) (hstat : t.stat = Stat.reset) : ResetValues t := by
  have hcount : t.queue.count = 0 := by rw [hqueue]; rfl
  refine ⟨by rw [hfa]; rfl, by rw [hfa]; rfl, by rw [hring]; rfl, fun c => by rw [refGet, hring]; rfl, queued_eq_nil hcount,
    by rw [hqueue]; rfl, by rw [hqueue]; rfl, hcount, by rw [hprod]; rfl, by rw [hprod]; rfl, by rw [hprod]; rfl,
    by rw [hprod]; rfl, by rw [hctl]; rfl, by rw [hctl]; rfl, by rw [hctl]; rfl, by rw [hctl]; rfl, by rw [hctl]; rfl,
    by rw [htim]; rfl, by rw [htim]; rfl, by rw [htim]; rfl, by rw [hregs]; rfl, by rw [hregs]; rfl, by rw [hregs]; rfl,
    by rw [hregs]; rfl, by rw [hostRead, hstat]; rfl, by rw [hostRead, hstat]; rfl, by rw [hostRead, stateReg, hctl]; rfl⟩

/-- Settles O42: both states have the registers of power-on; DEST and the model's own fields are not written. -/
theorem resetGivesTheTablesValues : Obligations.ResetGivesTheTablesValues := by
  unfold Obligations.ResetGivesTheTablesValues
  refine ⟨fun c => ⟨rfl, resetValues_of_registers rfl rfl rfl rfl rfl rfl rfl rfl⟩, rfl, fun s => ⟨powerOn s, rfl,
    resetValues_of_registers rfl rfl rfl rfl rfl rfl rfl rfl, fun p hp => ?_⟩⟩
  have h := same_refl p s
  cases p
  case dest | cfg | sched | trIn | draws | outPf | outPv | outFa | outDeq | answers | requests | trace => exact h
  all_goals simp at hp

/-! ### The waits (log 10) -/

theorem not_terminated_of_running {s : State} (h : running s = true) : ¬ producerTerminated s = true := fun hp => by
  rw [(terminated_iff_not_running s).mp hp] at h
  cases h

/-- Settles O43: each step's enabling condition fails. -/
theorem waitingStepsChangeNothing : Obligations.WaitingStepsChangeNothing := by
  unfold Obligations.WaitingStepsChangeNothing
  intro s
  refine ⟨fun _ hr => if_neg fun h => hr h.2.2, fun hp hi hc hk hca hq => ?_, fun c d hq => if_neg ?_, fun hq => if_neg ?_,
    fun hp => if_neg (not_terminated_of_running hp), fun hs hd hp hq => ?_, fun hs hp => ?_, fun hs hb => ?_,
    fun hs hp => if_neg fun h => not_terminated_of_running hp h.2, fun h => if_neg fun hf => ?_, fun hb => if_neg ?_⟩
  · exact exec_spSplit hp ((splitStep_kept hi hc hk).trans (splitQueue_waits hca hq))
  · simp [enqReady, hq]
  · simp [deqValid, hq]
  · exact (if_pos hs).trans (congrArg outcome (consumeStep_empty hd hp hq))
  · have hstep : resyncStep s = s := by
      rw [resyncStep, hs]
      exact if_neg (not_terminated_of_running hp)
    exact congrArg Host.Outcome.next hstep
  · have hstep : resyncStep s = s := by
      rw [resyncStep, hs]
      exact if_pos hb
    exact congrArg Host.Outcome.next hstep
  · rcases h with h | h
    · rw [h] at hf; exact absurd hf.1 (by decide)
    · rw [h] at hf; exact absurd hf.2 (by decide)
  · rw [hb]; decide

/-! ### The host's DEST (R39, R67) -/

theorem frame_dest (m : List (Nat × BitVec 16)) (s : State) : Frame [.dest] [] s { s with dest := m } := by
  refine ⟨fun q hq => ?_, traced_nil rfl⟩
  have h := same_refl q s
  cases q
  case dest => simp at hq
  all_goals exact h

theorem readDest_written (s : State) (a : Nat) (v : BitVec 16) (b : Nat) :
    readDest { s with dest := cellsSet s.dest a [v] } b = if b = a then v else readDest s b := by
  rw [readDest, cellGet_cellsSet]
  by_cases h : b = a
  · rw [if_pos h, h]
    simp
  · rw [if_neg h, if_neg (by simp only [List.length_cons, List.length_nil]; omega)]
    rfl

/-- Settles O60: the host's write is a write of one word of DEST. -/
theorem hostWritesItsOwnDest : Obligations.HostWritesItsOwnDest := by
  unfold Obligations.HostWritesItsOwnDest
  intro s a v hl
  have hstep := step_of_write hl
  refine ⟨fun ha => ?_, fun ha => hstep.trans (congrArg outcome (if_neg (Nat.not_lt.mpr ha)))⟩
  have hframe := (frame_dest (cellsSet (nextLine s).2.dest a [v]) (nextLine s).2).allBut
  have hnext : step s = .next { (nextLine s).2 with dest := cellsSet (nextLine s).2.dest a [v] } :=
    hstep.trans (congrArg outcome (if_pos ha))
  have hkeep := nextLine_allBut s
  refine ⟨_, hnext, by rw [readDest_written, if_pos rfl], fun b hb => ?_, hframe,
    AllBut.mono (AllBut.trans hkeep hframe) (by decide)⟩
  rw [readDest_written, if_neg hb]
  exact hkeep .dest (by decide) b

end Sys2Proof.Laws
end

section
/-!
PROOF. O52 to O55 and O59: what no instruction does, row by row of `AgentStep` and `UnitStep`, and how long a cancelled
producer runs.
-/

namespace Sys2Proof.Laws

open Sys2Proof.Machine Sys2Proof.Safety

/-- Every instruction but RESET takes a row of the agents or of the units. -/
theorem exec_rows {i : Instr} {s t : State} (h : exec i s = .next t) (hi : i ≠ .reset) :
    AgentStep s t ∨ UnitStep i s t := by
  cases ha : agentInstr i with
  | true => exact .inl (exec_agentStep ha hi h)
  | false => exact .inr (exec_unitStep ha h)

/-! ### CAUSE (R37, R270) -/

/-- `CAUSE` stays, or the step is the entry of a resynchronisation. -/
def CauseKept (s t : State) : Prop :=
  t.stat.cause = s.stat.cause ∨ (s.ctl.scState = .retr ∧ t.stat.cause ≠ .none ∧ Trapped t.stat.cause t)

section
variable {i : Instr} {s t : State}

theorem causeKept_endRetrieve (st : Status) (isOpen : Bool) (s : State) : CauseKept s (endRetrieve st isOpen s) := by
  left
  cases isOpen
  · exact (frame_endRetrieve_closed st s).allBut .cause (by decide)
  · exact (frame_endRetrieve_open st s).allBut .cause (by decide)

theorem causeKept_raiseResync {c : Cause} (hc : c ≠ .none) (hs : s.ctl.scState = .retr) : CauseKept s (raiseResync c s) :=
  .inr ⟨hs, hc, raiseResync_trapped c s⟩

theorem ResultStep.causeKept {r : Option FaRes} (h : ResultStep s r t) : CauseKept s t := by
  cases h with
  | kept => exact .inl rfl
  | trapped _ c hc hs => exact causeKept_raiseResync hc hs
  | completed hs => exact causeKept_endRetrieve .ok true (writeImageOp s)

theorem PacketStep.causeKept {n : BitVec 6} {pay : List Byte} (h : PacketStep n pay s t) : CauseKept s t := by
  cases h with
  | unaccepted h => exact h.causeKept
  | accepted f ha h => exact h.causeKept

theorem AgentStep.causeKept (h : AgentStep s t) : CauseKept s t := by
  cases h
  case opened => exact .inl ((frame_openAnswered s).allBut .cause (by decide))
  case connectFailed => exact .inl ((frame_connectRefused s).allBut .cause (by decide))
  case closed => exact .inl ((frame_closeJoin s).allBut .cause (by decide))
  case reopenFailed => exact causeKept_endRetrieve .errReopen false (emit (.resyncEnd false) (drawn s))
  case timedOut => exact causeKept_endRetrieve .errTimeout true (emit (.consume .timeout) s)
  case stopped hs => exact causeKept_raiseResync (s := emit (.consume .pipelineStopped) s) (by decide) hs
  case consumed h => exact h.causeKept
  case split h => cases h <;> exact .inl rfl
  all_goals exact .inl rfl

theorem UnitStep.causeKept (h : UnitStep i s t) : CauseKept s t := by
  cases h
  case result h => exact h.causeKept
  case packetResult h => exact h.causeKept
  case data h => exact h.causeKept
  case packetData h => exact h.causeKept
  case fares h => exact h.causeKept
  all_goals exact .inl rfl

end

/-- Settles O53: the rows of every instruction. -/
theorem causeIsWrittenOnlyByTheTrap : Obligations.CauseIsWrittenOnlyByTheTrap := by
  unfold Obligations.CauseIsWrittenOnlyByTheTrap
  intro i s t h hi
  obtain h | h := exec_rows h hi
  · exact h.causeKept
  · exact h.causeKept

/-! ### The sequencers' transitions (R198, R240) -/

/-- The controller's transitions (R240). -/
def scRows : List (ScState × ScState) :=
  [(.closed, .opConn), (.opConn, .opened), (.opConn, .retr), (.opConn, .closed), (.opened, .retr), (.opened, .clJoin),
    (.retr, .opened), (.retr, .clJoin), (.retr, .rsJoin), (.rsJoin, .rsBackoff), (.rsBackoff, .rsConn), (.rsConn, .retr),
    (.rsConn, .closed), (.clJoin, .closed)]

/-- The producer's transitions (R198). -/
def prodRows : List (PState × PState) :=
  [(.idle, .acq), (.acq, .doneCancel), (.acq, .xfer), (.xfer, .split), (.xfer, .doneFail), (.split, .acq),
    (.split, .doneCancel), (.doneCancel, .idle), (.doneFail, .idle)]

/-- The controller stays or takes a row. -/
def ScMove (s t : State) : Prop := t.ctl.scState = s.ctl.scState ∨ (s.ctl.scState, t.ctl.scState) ∈ scRows

/-- The producer stays or takes a row. -/
def ProdMove (s t : State) : Prop := t.prod.pState = s.prod.pState ∨ (s.prod.pState, t.prod.pState) ∈ prodRows

section
variable {i : Instr} {s t : State}

theorem ScMove.row (a b : ScState) (hs : s.ctl.scState = a) (ht : t.ctl.scState = b) (h : (a, b) ∈ scRows) :
    ScMove s t := .inr (by rw [hs, ht]; exact h)

theorem ProdMove.row (a b : PState) (hs : s.prod.pState = a) (ht : t.prod.pState = b) (h : (a, b) ∈ prodRows) :
    ProdMove s t := .inr (by rw [hs, ht]; exact h)

theorem scState_endRetrieve_open (st : Status) (s : State) :
    (endRetrieve st true s).ctl.scState = .opened ∨ (endRetrieve st true s).ctl.scState = .clJoin := by
  by_cases hc : s.ctl.cmd = .retrieveFrame
  · rw [endRetrieve_frame st true hc, respond_ctl]
    exact .inl rfl
  · rw [endRetrieve_snapshot_open st s hc]
    exact .inr rfl

theorem scMove_endRetrieve (st : Status) {u : State} (hs : s.ctl.scState = .retr) :
    ScMove s (endRetrieve st true u) := by
  obtain h | h := scState_endRetrieve_open st u
  · exact .row .retr .opened hs h (by decide)
  · exact .row .retr .clJoin hs h (by decide)

/-- FQ.FLUSH idles a producer that has terminated. -/
theorem prodMove_idled (hp : producerTerminated s = true) (ht : t.prod.pState = .idle) : ProdMove s t := by
  obtain h | h | h := (terminated_iff s).mp hp
  · exact .row .doneCancel .idle h ht (by decide)
  · exact .row .doneFail .idle h ht (by decide)
  · exact .inl (ht.trans h.symm)

theorem ResultStep.moves {r : Option FaRes} (h : ResultStep s r t) : ScMove s t ∧ ProdMove s t := by
  cases h with
  | kept => exact ⟨.inl rfl, .inl rfl⟩
  | trapped _ c hc hs => exact ⟨.row .retr .rsJoin hs rfl (by decide), .inl rfl⟩
  | completed hs =>
    exact ⟨scMove_endRetrieve .ok hs, .inl (endRetrieve_dataKept .ok true (writeImageOp s)).pState⟩

theorem PacketStep.moves {n : BitVec 6} {pay : List Byte} (h : PacketStep n pay s t) : ScMove s t ∧ ProdMove s t := by
  cases h with
  | unaccepted h => exact h.moves
  | accepted f ha h => exact h.moves

theorem SplitStep.moves (hp : s.prod.pState = .split) (h : SplitStep s t) : ScMove s t ∧ ProdMove s t := by
  cases h
  case ended => exact ⟨.inl rfl, .row .split .acq hp rfl (by decide)⟩
  case cancelled => exact ⟨.inl rfl, .row .split .doneCancel hp rfl (by decide)⟩
  all_goals exact ⟨.inl rfl, .inl rfl⟩

theorem AgentStep.scMove (h : AgentStep s t) : ScMove s t := by
  cases h
  case openAccepted hs => exact .row .closed .opConn hs rfl (by decide)
  case snapshotAccepted hs => exact .row .closed .opConn hs rfl (by decide)
  case closeAccepted hs => exact .row .opened .clJoin hs rfl (by decide)
  case retrieveAccepted hs => exact .row .opened .retr hs rfl (by decide)
  case opened hs _ => exact .row .opConn .opened hs (by rw [respond_ctl]) (by decide)
  case snapshotOpened hs _ => exact .row .opConn .retr hs rfl (by decide)
  case connectFailed hs _ => exact .row .opConn .closed hs (connectRefused_scState s) (by decide)
  case closed hs _ => exact .row .clJoin .closed hs (by rw [closeJoin_eq, respond_ctl]) (by decide)
  case resyncJoined hs _ => exact .row .rsJoin .rsBackoff hs rfl (by decide)
  case reconnecting hs _ => exact .row .rsBackoff .rsConn hs rfl (by decide)
  case resumed hs => exact .row .rsConn .retr hs rfl (by decide)
  case reopenFailed hs =>
    obtain ⟨-, hsc, -⟩ := endRetrieve_closed_fields .errReopen (emit (.resyncEnd false) (drawn s))
    exact .row .rsConn .closed hs hsc (by decide)
  case timedOut hs => exact scMove_endRetrieve .errTimeout hs
  case stopped hs => exact .row .retr .rsJoin hs rfl (by decide)
  case consumed h =>
    obtain ⟨hsc, -⟩ := h.moves
    exact hsc
  case split hp h =>
    obtain ⟨hsc, -⟩ := h.moves hp
    exact hsc
  all_goals exact .inl rfl

/-- The producer is started only where it is idle, which the controller's state implies. -/
theorem AgentStep.prodMove (hok : ctlOk s) (h : AgentStep s t) : ProdMove s t := by
  cases h
  case chunkTaken hp _ _ => exact .row .acq .xfer hp rfl (by decide)
  case transferred hp _ => exact .row .xfer .split hp rfl (by decide)
  case transferLost hp _ => exact .row .xfer .doneFail hp rfl (by decide)
  case exited hp _ => exact .row .acq .doneCancel hp rfl (by decide)
  case split hp h =>
    obtain ⟨-, hprod⟩ := h.moves hp
    exact hprod
  case opened hs _ =>
    obtain ⟨-, -, hidle⟩ := ctlOk_opConn hok hs
    exact .row .idle .acq hidle (by rw [respond_prod]; rfl) (by decide)
  case snapshotOpened hs _ =>
    obtain ⟨-, -, hidle⟩ := ctlOk_opConn hok hs
    exact .row .idle .acq hidle rfl (by decide)
  case resumed hs =>
    obtain ⟨-, -, hidle⟩ := ctlOk_rsConn hok hs
    exact .row .idle .acq hidle rfl (by decide)
  case connectFailed => exact .inl ((frame_connectRefused s).allBut .pState (by decide))
  case closed hp => exact prodMove_idled hp (by rw [closeJoin_eq, respond_prod]; rfl)
  case resyncJoined hp => exact prodMove_idled hp rfl
  case reopenFailed => exact .inl (endRetrieve_dataKept .errReopen false (emit (.resyncEnd false) (drawn s))).pState
  case timedOut => exact .inl (endRetrieve_dataKept .errTimeout true (emit (.consume .timeout) s)).pState
  case consumed h =>
    obtain ⟨-, hprod⟩ := h.moves
    exact hprod
  all_goals exact .inl rfl

theorem UnitStep.moves (h : UnitStep i s t) : ScMove s t ∧ ProdMove s t := by
  cases h
  case result h => exact h.moves
  case packetResult h => exact h.moves
  case data h => exact h.moves
  case packetData h => exact h.moves
  case fares h => exact h.moves
  case flushed hp => exact ⟨.inl rfl, prodMove_idled hp rfl⟩
  case started hp _ => exact ⟨.inl rfl, .row .idle .acq hp rfl (by decide)⟩
  all_goals exact ⟨.inl rfl, .inl rfl⟩

end

/-- Settles O55: the rows of every instruction are rows of the two tables. -/
theorem sequencersTakeOnlyTheirTransitions : Obligations.SequencersTakeOnlyTheirTransitions := by
  unfold Obligations.SequencersTakeOnlyTheirTransitions
  intro i s t h hi
  change ScMove s t ∧ (ctlOk s → ProdMove s t)
  obtain h | h := exec_rows h hi
  · exact ⟨h.scMove, fun hok => h.prodMove hok⟩
  · obtain ⟨hsc, hprod⟩ := h.moves
    exact ⟨hsc, fun _ => hprod⟩

/-! ### DEST (R39, R169) -/

/-- DEST stays, or the step ended the retrieval with the image of a frame FA completed. -/
def DestKept (i : Instr) (s t : State) : Prop :=
  (∀ a, readDest t a = readDest s a) ∨
    (ImageWritten t t ∧ (∀ a, 19200 ≤ a → readDest t a = readDest s a) ∧
      (i = .faWriteImage ∨ ((i = .faresComplete ∨ t.out.fa = some .complete) ∧ ImageEndsRetrieval s t)))

section
variable {i : Instr} {s t : State}

theorem DestKept.of_dest (h : t.dest = s.dest) : DestKept i s t := .inl (readDest_congr h)

theorem imageWritten_self (h : ImageWritten s t) (hf : ∀ a, readByte t .framebuf a = readByte s .framebuf a) :
    ImageWritten t t := fun w hw => by rw [h w hw, hf, hf]

/-- A completed frame's retrieval ends as R233 and R236 say. -/
theorem imageEndsRetrieval_completed (hs : s.ctl.scState = .retr) (hok : ctlOk s) :
    ImageEndsRetrieval s (endRetrieve .ok true (writeImageOp s)) := by
  obtain ⟨hret, -⟩ := ctlOk_retr hok hs
  obtain ⟨-, hframe, hsnap⟩ := endRetrieve_endedOpen .ok (writeImageOp s)
  refine ⟨hs, ?_⟩
  obtain hc | ⟨hc, hphase⟩ := (retrieving_iff s).mp hret
  · obtain ⟨hsc, hcmd, hst, hans, -⟩ := hframe hc
    exact .inl ⟨hc, hsc, hst, hcmd, hans⟩
  · obtain ⟨hsc, hst, hph, -, hcmd, -, hans⟩ := hsnap hc
    exact .inr ⟨hc, hphase, hsc, Eq.trans hcmd hc, hph, hst, hans⟩

theorem ResultStep.destKept {r : Option FaRes} (h : ResultStep s r t) (hok : ctlOk s)
    (hr : r = some .complete → i = .faresComplete ∨ s.out.fa = some .complete) : DestKept i s t := by
  cases h with
  | kept => exact .of_dest rfl
  | trapped _ c _ _ => exact .of_dest rfl
  | completed hs =>
    have hframe := (frame_completed s).allBut
    have hout : (endRetrieve .ok true (writeImageOp s)).out.fa = s.out.fa := hframe .outFa (by decide)
    refine .inr ⟨imageWritten_self (completed_imageWritten .ok s) (hframe .framebuf (by decide)),
      fun a ha => completed_dest_above .ok s ha, .inr ⟨?_, imageEndsRetrieval_completed hs hok⟩⟩
    rw [hout]
    exact hr rfl

theorem PacketStep.destKept {n : BitVec 6} {pay : List Byte} (h : PacketStep n pay s t) (hok : ctlOk s) :
    DestKept i s t := by
  cases h with
  | unaccepted h => exact h.destKept hok (by simp)
  | accepted f ha h => exact h.destKept hok fun hr => .inr hr

theorem AgentStep.destKept (h : AgentStep s t) (hok : ctlOk s) : DestKept i s t := by
  cases h
  case consumed h => exact h.destKept hok
  case split h => cases h <;> exact .of_dest rfl
  case opened => exact .of_dest (respond_dataKept _ _).dest
  case connectFailed => exact .of_dest (respond_dataKept _ _).dest
  case closed => exact .of_dest (closeJoin_dataKept s).dest
  case reopenFailed => exact .of_dest (endRetrieve_dataKept .errReopen false (emit (.resyncEnd false) (drawn s))).dest
  case timedOut => exact .of_dest (endRetrieve_dataKept .errTimeout true (emit (.consume .timeout) s)).dest
  all_goals exact .of_dest rfl

theorem UnitStep.destKept (h : UnitStep i s t) (hok : ctlOk s) : DestKept i s t := by
  cases h
  case result h => exact h.destKept hok (by simp)
  case packetResult h => exact h.destKept (i := i) hok (by simp)
  case data h => exact h.destKept hok
  case packetData h => exact h.destKept (i := i) hok
  case fares hi h => exact h.destKept hok fun hr => .inl (hi (Option.some.inj hr))
  case imageWritten hi =>
    exact .inr ⟨imageWritten_self (writeImageOp_imageWritten s) fun _ => rfl,
      fun a ha => readDest_writeImageOp_above s a ha, .inl hi⟩
  all_goals exact .of_dest rfl

end

/-- Settles O52: the rows of every instruction; RESET keeps DEST. -/
theorem destIsWrittenOnlyAsAnImage : Obligations.DestIsWrittenOnlyAsAnImage := by
  unfold Obligations.DestIsWrittenOnlyAsAnImage
  intro i s t hok h
  change DestKept i s t
  by_cases hi : i = .reset
  · subst hi
    cases h
    exact .of_dest rfl
  · obtain h | h := exec_rows h hi
    · exact h.destKept hok
    · exact h.destKept hok

/-! ### The rights of the producer and the timers (R43, R280) -/

/-- What the producer writes beside ARENA, the counts and FQ. -/
def producerParts : List Part :=
  [.wrIdx, .curChunk, .splitIdx, .pState, .outPf, .requests, .trIn, .draws, .trace]

/-- What the producer may do to the rest of the block. -/
def ProducerRights (s t : State) : Prop :=
  TailOnly s t ∧ SameBytesBut .arena (s.prod.curChunk * (s.cfg.p * 164)) (s.cfg.p * 164) s t ∧
    (∀ c, refGet s c ≤ refGet t c) ∧
    AllBut [.arena, .wrIdx, .curChunk, .splitIdx, .pState, .refcnt, .queue, .outPf, .requests, .trIn, .draws, .trace] s t

/-- Everything a step of the producer can do (R198). -/
inductive ProducerRow (s : State) : State → Prop
  | waits : ProducerRow s s
  | chunkTaken : ProducerRow s (takeChunk s)
  | transferred : ProducerRow s (transferred s)
  | transferLost : ProducerRow s (transferLost s)
  | split {t : State} (h : SplitStep s t) : ProducerRow s t
  | exited : ProducerRow s (exitOnCancel s)

section
variable {i : Instr} {s t : State}

theorem tailOnly_of_same (h : same .queue s t) : TailOnly s t := by
  obtain ⟨hhead, htail, hcount, hget⟩ := h
  exact ⟨hhead, .inl ⟨htail, hcount, hget⟩⟩

/-- A row that writes neither the counts nor FQ, and of ARENA the chunk only. -/
theorem ProducerRights.of_chunk (h : AllBut (.arena :: producerParts) s t)
    (hbytes : SameBytesBut .arena (s.prod.curChunk * (s.cfg.p * 164)) (s.cfg.p * 164) s t) : ProducerRights s t :=
  ⟨tailOnly_of_same (h .queue (by decide)), hbytes, fun c => (h .refcnt (by decide) c).ge, AllBut.mono h (by decide)⟩

/-- A row that writes the producer's own registers only. -/
theorem ProducerRights.of_own (h : AllBut producerParts s t) : ProducerRights s t :=
  .of_chunk (AllBut.mono h (by decide)) fun a _ => h .arena (by decide) a

/-- FQ.ENQ writes the entry at the tail and counts the chunk's reference. -/
theorem producerRights_sent (s : State) : ProducerRights s
    { enqueued (curDesc s) s with prod.splitIdx := s.prod.splitIdx + 1, out.pf := some false } := by
  have hframe := (frame_splitSent s).allBut
  refine ⟨⟨rfl, .inr ⟨rfl, rfl, fun e he => ?_⟩⟩, fun a _ => hframe .arena (by decide) a, fun c => ?_,
    AllBut.mono hframe (by decide)⟩
  · exact (qGet_enqueued (curDesc s) s e).trans (if_neg he)
  · refine le_of_le_of_eq ?_ (refGet_enqueued (curDesc s) s c).symm
    split
    · next hc => rw [hc]; exact Nat.le_succ _
    · exact le_rfl

theorem SplitStep.rights (h : SplitStep s t) : ProducerRights s t := by
  cases h with
  | ended => exact .of_own (AllBut.mono (frame_splitEnded s).allBut (by decide))
  | dropped => exact .of_own (AllBut.mono (frame_splitDropped s).allBut (by decide))
  | cancelled => exact .of_own (AllBut.mono (frame_exitAtSlice s).allBut (by decide))
  | sent => exact producerRights_sent s
  | waits => exact .of_own fun p _ => same_refl p s

theorem ProducerRow.rights (h : ProducerRow s t) : ProducerRights s t := by
  cases h with
  | waits => exact .of_own fun p _ => same_refl p s
  | chunkTaken => exact .of_own (AllBut.mono (frame_takeChunk s).allBut (by decide))
  | transferred =>
    exact .of_chunk (AllBut.mono (frame_transferred s).allBut (by decide)) (chunkFilled_sameBytesBut (rxBytes_length s _))
  | transferLost =>
    exact .of_chunk (AllBut.mono (frame_transferLost s).allBut (by decide))
      (chunkFilled_sameBytesBut (failedBytes_length s _))
  | split h => exact h.rights
  | exited => exact .of_own (AllBut.mono (frame_exitOnCancel s).allBut (by decide))

/-- A step that is performed where its condition holds, and waits elsewhere (log 10). -/
theorem enabled_or_waits {c : Prop} [Decidable c] {o : Host.Outcome State Fault Refusal}
    (h : (if c then o else .next s) = .next t) : (c ∧ o = .next t) ∨ t = s := by
  split at h
  · next hc => exact .inl ⟨hc, h⟩
  · cases h; exact .inr rfl

theorem exitCancelStep_row (h : exitCancelStep s = .ok t) : ProducerRow s t := by
  unfold exitCancelStep at h
  split at h
  · cases h; exact .exited
  · split at h
    · next hc =>
      obtain rfl | hsplit := exitAtSlice_ok hc.1 h
      · exact .waits
      · exact .split hsplit
    · cases h; exact .waits

theorem execSpTransfer_row (h : execSpTransfer s = .next t) : ProducerRow s t := by
  obtain ⟨-, ht⟩ | rfl := enabled_or_waits h
  · have hop := outcome_next.mp ht
    split at hop
    · obtain ⟨-, rfl⟩ := transferOk_inside hop
      exact .transferred
    · obtain ⟨-, rfl⟩ := transferFail_inside hop
      exact .transferLost
  · exact .waits

theorem exec_producerRow (hi : i = .rbNextChunk ∨ i = .spTransfer ∨ i = .spSplit ∨ ∃ r, i = .spExit r)
    (h : exec i s = .next t) : ProducerRow s t := by
  obtain rfl | rfl | rfl | ⟨r, rfl⟩ := hi
  · obtain ⟨-, ht⟩ | rfl := enabled_or_waits h
    · cases ht; exact .chunkTaken
    · exact .waits
  · exact execSpTransfer_row h
  · obtain ⟨-, ht⟩ | rfl := enabled_or_waits h
    · exact .split (splitStep_ok (outcome_next.mp ht))
    · exact .waits
  · cases r with
    | cancel => exact exitCancelStep_row (outcome_next.mp h)
    | transferFailure =>
      obtain ⟨-, ht⟩ | rfl := enabled_or_waits h
      · obtain ⟨-, rfl⟩ := transferFail_inside (outcome_next.mp ht)
        exact .transferLost
      · exact .waits

end

/-- Settles O54: the rows of the producer's operations, and the two timer events. -/
theorem agentsKeepToTheirRights : Obligations.AgentsKeepToTheirRights := by
  unfold Obligations.AgentsKeepToTheirRights
  refine fun i s t h => ⟨fun hi => (exec_producerRow hi h).rights, fun hi => ?_, fun hi => ?_⟩
  · subst hi
    obtain ⟨-, ht⟩ | rfl := enabled_or_waits h
    · cases ht; exact (frame_fired s).allBut
    · exact fun p _ => same_refl p t
  · subst hi
    obtain ⟨-, ht⟩ | rfl := enabled_or_waits h
    · cases ht; exact (frame_backoffEnded s).allBut
    · exact fun p _ => same_refl p t

/-! ### A cancelled producer terminates (R199) -/

/-- A cancelled producer that has not been idled by the controller, with its position in range. -/
structure Draining (s : State) : Prop where
  cancel : s.prod.cancel = true
  curChunk_lt : s.prod.curChunk < s.cfg.n
  splitIdx_le : s.prod.splitIdx ≤ s.cfg.p
  started : s.prod.pState ≠ .idle

/-- How many steps a cancelled producer needs at most until it terminates. -/
def stepsLeft (s : State) : Nat :=
  match s.prod.pState with
  | .idle => 0
  | .acq => 1
  | .xfer => s.cfg.p + 3
  | .split => s.cfg.p - s.prod.splitIdx + 2
  | .doneCancel => 0
  | .doneFail => 0

/-- One step of a cancelled producer brings it nearer to its end. -/
def Advances (s t : State) : Prop := Draining t ∧ t.env.sched = s.env.sched ∧ stepsLeft t ≤ stepsLeft s - 1

section
variable {s t : State} {rest : List Line}

theorem stepsLeft_acq (hp : s.prod.pState = .acq) : stepsLeft s = 1 := by rw [stepsLeft, hp]

theorem stepsLeft_xfer (hp : s.prod.pState = .xfer) : stepsLeft s = s.cfg.p + 3 := by rw [stepsLeft, hp]

theorem stepsLeft_split (hp : s.prod.pState = .split) : stepsLeft s = s.cfg.p - s.prod.splitIdx + 2 := by
  rw [stepsLeft, hp]

theorem stepsLeft_done (hp : s.prod.pState = .doneCancel ∨ s.prod.pState = .doneFail) : stepsLeft s = 0 := by
  obtain hp | hp := hp
  all_goals rw [stepsLeft, hp]

/-- `P_ACQ`: the producer samples `cancel` and exits. -/
theorem advances_acq (hd : Draining s) : Advances s (exitOnCancel s) :=
  ⟨⟨hd.cancel, hd.curChunk_lt, hd.splitIdx_le, ne_of_eq_of_ne (b := PState.doneCancel) rfl (by decide)⟩, rfl,
    (stepsLeft_done (.inl rfl)).le.trans (Nat.zero_le _)⟩

/-- `P_XFER`: the transfer is finished, whatever the transport answers. -/
theorem advances_xfer (hd : Draining s) (hp : s.prod.pState = .xfer) :
    ∃ t, exec .spTransfer s = .next t ∧ Advances s t := by
  obtain ⟨hca, hc, hi, -⟩ := hd
  cases ha : (answerOf s).ok with
  | true =>
    refine ⟨_, exec_spTransfer_ok hp hc ha, ⟨hca, hc, Nat.zero_le _, ne_of_eq_of_ne (b := PState.split) rfl (by decide)⟩,
      rfl, ?_⟩
    have hleft : stepsLeft (transferred s) = s.cfg.p - 0 + 2 := stepsLeft_split rfl
    rw [hleft, stepsLeft_xfer hp]
    omega
  | false =>
    refine ⟨_, exec_transferFail (.inl rfl) hp hc ha,
      ⟨hca, hc, hi, ne_of_eq_of_ne (b := PState.doneFail) rfl (by decide)⟩, rfl, ?_⟩
    exact (stepsLeft_done (.inr rfl)).le.trans (Nat.zero_le _)

/-- `P_SPLIT`: the chunk ends, a padding slice is dropped, or the producer samples `cancel` and exits. -/
theorem advances_split (hd : Draining s) (hp : s.prod.pState = .split) :
    ∃ t, exec .spSplit s = .next t ∧ Advances s t := by
  obtain ⟨hca, hc, hi, -⟩ := hd
  have hleft := stepsLeft_split hp
  by_cases hend : s.prod.splitIdx = s.cfg.p
  · refine ⟨_, exec_spSplit hp (if_pos hend), ⟨hca, hc, hi, ne_of_eq_of_ne (b := PState.acq) rfl (by decide)⟩, rfl,
      ?_⟩
    rw [stepsLeft_acq rfl, hleft]
    omega
  · have hlt : s.prod.splitIdx < s.cfg.p := by omega
    by_cases hk : SliceKept s
    · refine ⟨_, exec_spSplit hp ((splitStep_kept hlt hc hk).trans (splitQueue_cancelled hca)),
        ⟨hca, hc, hi, ne_of_eq_of_ne (b := PState.doneCancel) rfl (by decide)⟩, rfl, ?_⟩
      exact (stepsLeft_done (.inl rfl)).le.trans (Nat.zero_le _)
    · refine ⟨_, exec_spSplit hp (splitStep_dropped hlt hc hk), ⟨hca, hc, hlt, ne_of_eq_of_ne hp (by decide)⟩, rfl, ?_⟩
      refine le_of_eq_of_le (stepsLeft_split hp) ?_
      rw [hleft]
      change s.cfg.p - (s.prod.splitIdx + 1) + 2 ≤ _
      omega

/-- A step of the producer (R198). -/
theorem step_producer_advances (hd : Draining s) (h : s.env.sched = .producer :: rest) :
    ∃ t, step s = .next t ∧ Draining t ∧ t.env.sched = rest ∧ stepsLeft t ≤ stepsLeft s - 1 := by
  have hd' : Draining { s with env.sched := rest } := ⟨hd.cancel, hd.curChunk_lt, hd.splitIdx_le, hd.started⟩
  obtain ⟨hprod, -⟩ := sequencersPerformTheStepTheyStandAt s rest
  obtain ⟨-, hacq, hxfer, hsplit, hwait⟩ := hprod h
  cases hp : s.prod.pState with
  | idle => exact absurd hp hd.started
  | acq =>
    obtain ⟨ht, hsched, hleft⟩ := advances_acq hd'
    exact ⟨_, (hacq hp hd.cancel).trans (exec_spExit_acq hd.cancel hp), ht, hsched, hleft⟩
  | xfer =>
    obtain ⟨t, hexec, ht, hsched, hleft⟩ := advances_xfer hd' hp
    exact ⟨t, (hxfer hp).trans hexec, ht, hsched, hleft⟩
  | split =>
    obtain ⟨t, hexec, ht, hsched, hleft⟩ := advances_split hd' hp
    exact ⟨t, (hsplit hp).trans hexec, ht, hsched, hleft⟩
  | doneCancel => exact ⟨_, hwait (.inr (.inl hp)), hd', rfl, (stepsLeft_done (.inl hp)).le.trans (Nat.zero_le _)⟩
  | doneFail => exact ⟨_, hwait (.inr (.inr hp)), hd', rfl, (stepsLeft_done (.inr hp)).le.trans (Nat.zero_le _)⟩

theorem run_succ_of_step {M : Host.Core} {k : Nat} {x y : M.State} (h : M.step x = .next y) :
    M.run (k + 1) x = M.run k y := by
  rw [Host.Core.run, h]

theorem run_producer_advances (k : Nat) (hd : Draining s) (h : s.env.sched = List.replicate k .producer ++ rest) :
    ∃ t, Sys2Proof.core.run k s = .next t ∧ Draining t ∧ stepsLeft t ≤ stepsLeft s - k := by
  induction k generalizing s with
  | zero => exact ⟨s, rfl, hd, le_rfl⟩
  | succ k ih =>
    obtain ⟨t, hstep, ht, hsched, hleft⟩ := step_producer_advances hd h
    obtain ⟨u, hrun, hu, huleft⟩ := ih ht hsched
    refine ⟨u, ?_, hu, by omega⟩
    have hcore : Sys2Proof.core.step s = .next t := hstep
    exact (run_succ_of_step hcore).trans hrun

theorem terminated_of_stepsLeft (hd : Draining s) (h : stepsLeft s = 0) :
    s.prod.pState = .doneCancel ∨ s.prod.pState = .doneFail := by
  cases hp : s.prod.pState with
  | idle => exact absurd hp hd.started
  | acq => rw [stepsLeft_acq hp] at h; cases h
  | xfer => rw [stepsLeft_xfer hp] at h; cases h
  | split => rw [stepsLeft_split hp] at h; cases h
  | doneCancel => exact .inl rfl
  | doneFail => exact .inr rfl

end

/-- Settles O59: `stepsLeft` is at most `P + 2`, from `P_XFER` `P + 3`, and every step of the producer lowers it. -/
theorem cancelledProducerTerminatesInTime : Obligations.CancelledProducerTerminatesInTime := by
  unfold Obligations.CancelledProducerTerminatesInTime
  intro s rest k hinv hca hrun hk hsched
  have hpos := (running_iff s).mp hrun
  have hne : s.prod.pState ≠ .idle := by
    rintro hidle
    rw [hidle] at hpos
    simp at hpos
  have hd : Draining s := ⟨hca, hinv.prod.curChunk_lt, hinv.prod.splitIdx_le, hne⟩
  have hleft : stepsLeft s ≤ k := by
    obtain hp | hp | hp := hpos
    · rw [stepsLeft_acq hp, hk, hp, if_neg (by decide)]
      omega
    · rw [stepsLeft_xfer hp, hk, if_pos hp]
    · rw [stepsLeft_split hp, hk, hp, if_neg (by decide)]
      omega
  obtain ⟨t, hcore, ht, htleft⟩ := run_producer_advances k hd hsched
  exact ⟨t, hcore, terminated_of_stepsLeft ht (by omega)⟩

end Sys2Proof.Laws
end

section
/-!
PROOF. O48 and O49: packets accepted one after the other (R167, R172 to R177). Two runs of FA agree on what `Covered` covers
of SEGBUF and FRAMEBUF; and a whole frame in order fills FRAMEBUF slot by slot.
-/

namespace Sys2Proof.Laws

open Sys2Proof.Machine Sys2Proof.Safety

/-! ### FA driven alone -/

/-- The state after FA.ACCEPT, with the result on its output. -/
def acceptedPut (n : BitVec 6) (pay : List Byte) (s : State) : State :=
  putFa (accepted n pay s).1 (accepted n pay s).2

section
variable {n : BitVec 6} {pay : List Byte} {s u : State} {rest : List (BitVec 6 × List Byte)} {rs : List FaRes}

theorem exec_acceptedPut (hlen : pay.length = 160) (ho : s.fa.segOrd.toNat ≤ 4) :
    exec (.faAccept n pay) s = .next (acceptedPut n pay s) := exec_faAccept_eq n pay s hlen fun _ => ho

theorem acceptAll_cons (hlen : pay.length = 160) (ho : s.fa.segOrd.toNat ≤ 4)
    (h : acceptAll rest (acceptedPut n pay s) = some (u, rs)) :
    acceptAll ((n, pay) :: rest) s = some (u, (accepted n pay s).1 :: rs) := by
  have hout : (acceptedPut n pay s).out.fa = some (accepted n pay s).1 := rfl
  simp only [acceptAll, exec_acceptedPut hlen ho, hout, h]

theorem acceptAll_append {ps qs : List (BitVec 6 × List Byte)} {t : State} {rs' : List FaRes}
    (h : acceptAll ps s = some (t, rs)) (h' : acceptAll qs t = some (u, rs')) :
    acceptAll (ps ++ qs) s = some (u, rs ++ rs') := by
  induction ps generalizing s rs with
  | nil =>
    cases h
    exact h'
  | cons p ps ih =>
    obtain ⟨n, pay⟩ := p
    unfold acceptAll at h
    split at h
    · next v hv =>
      split at h
      · next r v' rs'' hr hrest =>
        cases h
        have hrec := ih hrest
        simp only [List.cons_append, acceptAll, hv, hr, hrec]
      · cases h
    · cases h
    · cases h

/-- The ordinal moves at packet 20 only, and by one at most (R163). -/
theorem ordinalAfter_advance {so o : BitVec 3} (h : ordinalAfter n pay so = .ok o) :
    (n.toNat ≠ 20 → o = so) ∧ so.toNat ≤ o.toNat ∧ o.toNat ≤ so.toNat + 1 := by
  unfold ordinalAfter ordinalStep at h
  split at h
  · next hn =>
    subst hn
    split at h
    · cases h
    · next h4 =>
      split at h
      · split at h
        · cases h
        · next heq =>
          cases h
          have hord := ordinal_toNat (payOrd pay) (Nat.not_lt.mp h4)
          exact ⟨fun hne => absurd rfl hne, by omega, by omega⟩
      · cases h; exact ⟨fun _ => rfl, le_rfl, Nat.le_succ _⟩
  · cases h; exact ⟨fun _ => rfl, le_rfl, Nat.le_succ _⟩

/-- `Complete` leaves FA at the end of segment 4 (R164). -/
theorem accepted_complete (h : (accepted n pay s).1 = .complete) :
    (accepted n pay s).2.fa.lastPn = some 59 ∧ (accepted n pay s).2.fa.segOrd = 4 := by
  by_cases hseq : n.toNat ≤ 59 ∧ n.toNat = nextPn s.fa.lastPn
  · cases ho : ordinalAfter n pay s.fa.segOrd with
    | error d => rw [accepted_of_error hseq ho] at h; cases h
    | ok o =>
      rw [accepted_of_ok hseq ho] at h ⊢
      have hdone : n = 59 ∧ o = 4 := by
        by_contra hne
        rw [acceptResult, if_neg hne] at h
        cases h
      obtain ⟨rfl, rfl⟩ := hdone
      exact ⟨rfl, (frame_passCopied 59 _).allBut .segOrd (by decide)⟩
  · rw [accepted_of_ne hseq] at h; cases h

end

/-! ### Two runs (R175) -/

/-- Two states whose FA stands at the same position and whose buffers agree on what has been received since the reset. -/
structure Agree (s t : State) : Prop where
  lastPn : t.fa.lastPn = s.fa.lastPn
  segOrd : t.fa.segOrd = s.fa.segOrd
  segOrd_le : s.fa.segOrd.toNat ≤ 4
  segOrd_none : s.fa.lastPn = none → s.fa.segOrd = 0
  covered : Covered s.fa.lastPn s.fa.segOrd (fun a => readByte s .segbuf a = readByte t .segbuf a)
    (fun a => readByte s .framebuf a = readByte t .framebuf a)

/-- Segment 4 has been adopted and the whole FRAMEBUF agrees. -/
def Settled (s t : State) : Prop :=
  s.fa.segOrd.toNat = 4 ∧ ∀ a, a < 38400 → readByte s .framebuf a = readByte t .framebuf a

section
variable {n : BitVec 6} {pay : List Byte} {s t : State}

theorem agree_of_reset (hs : s.fa.lastPn = none) (hso : s.fa.segOrd = 0) (ht : t.fa.lastPn = none)
    (hto : t.fa.segOrd = 0) : Agree s t :=
  ⟨ht.trans hs.symm, hto.trans hso.symm, by rw [hso]; decide, fun _ => hso, by rw [hs, hso]; exact covered_none _ _⟩

theorem readByte_stored_congr (n : BitVec 6) (pay : List Byte) {a : Nat}
    (h : readByte s .segbuf a = readByte t .segbuf a) :
    readByte (stored n pay s) .segbuf a = readByte (stored n pay t) .segbuf a := by
  rw [readByte_stored, readByte_stored, h]

theorem readByte_stored_slot (n : BitVec 6) {a : Nat} (hlen : pay.length = 160) (h1 : n.toNat * 160 ≤ a)
    (h2 : a < n.toNat * 160 + 160) :
    readByte (stored n pay s) .segbuf a = readByte (stored n pay t) .segbuf a := by
  rw [readByte_stored, readByte_stored, if_pos (by omega), if_pos (by omega)]

/-- The copy of a whole SEGBUF that agrees. -/
theorem readByte_passCopied_congr (ho : t.fa.segOrd = s.fa.segOrd)
    (hseg : n = 59 → ∀ a, a < 9600 → readByte s .segbuf a = readByte t .segbuf a) {a : Nat}
    (h : (n = 59 ∧ 0 < s.fa.segOrd.toNat ∧ (s.fa.segOrd.toNat - 1) * 9600 ≤ a ∧
        a < (s.fa.segOrd.toNat - 1) * 9600 + 9600) ∨ readByte s .framebuf a = readByte t .framebuf a) :
    readByte (passCopied n s) .framebuf a = readByte (passCopied n t) .framebuf a := by
  unfold passCopied
  rw [ho]
  split
  · next hn =>
    rw [readByte_segmentCopied, readByte_segmentCopied, ho]
    split
    · exact hseg hn.1 _ (by omega)
    · next hout => exact h.resolve_left fun e => hout e.2.2
  · next hn => exact h.resolve_left fun e => hn ⟨e.1, e.2.1⟩

/-- A packet that FA rejects at part 3 is stored all the same (R166). -/
theorem Agree.stored (h : Agree s t) (n : BitVec 6) (pay : List Byte) :
    Agree (Laws.stored n pay s) (Laws.stored n pay t) :=
  ⟨h.lastPn, h.segOrd, h.segOrd_le, h.segOrd_none,
    h.covered.mono (fun _ ha => readByte_stored_congr n pay ha) fun _ ha => ha⟩

/-- The state after a packet accepted with the ordinal `o`. -/
def moved (n : BitVec 6) (pay : List Byte) (o : BitVec 3) (s : State) : State :=
  { passCopied n { stored n pay s with fa.segOrd := o } with fa.lastPn := some n }

theorem moved_segOrd (n : BitVec 6) (pay : List Byte) (o : BitVec 3) (s : State) : (moved n pay o s).fa.segOrd = o :=
  (frame_passCopied n { stored n pay s with fa.segOrd := o }).allBut .segOrd (by decide)

theorem readByte_segbuf_moved (n : BitVec 6) (pay : List Byte) (o : BitVec 3) (s : State) (a : Nat) :
    readByte (moved n pay o s) .segbuf a = readByte (stored n pay s) .segbuf a :=
  readByte_segbuf_passCopied n { stored n pay s with fa.segOrd := o } a

/-- SEGBUF up to the packet stored agrees. -/
theorem Agree.segbuf_moved {o : BitVec 3} (h : Agree s t) (hlen : pay.length = 160)
    (hseq : n.toNat ≤ 59 ∧ n.toNat = nextPn s.fa.lastPn) (hord : ordinalAfter n pay s.fa.segOrd = .ok o) {a : Nat}
    (ha : a < (n.toNat + 1) * 160) :
    readByte (Laws.stored n pay s) .segbuf a = readByte (Laws.stored n pay t) .segbuf a := by
  obtain ⟨ho, -, ho20⟩ := ordinalAfter_advance hord
  have hseg := (h.covered.mono (frame' := fun _ => True) (fun _ h => h) fun _ _ => trivial).advance h.segOrd_none hseq.1
    hseq.2 ho ho20 (seg' := fun a => readByte (Laws.stored n pay s) .segbuf a = readByte (Laws.stored n pay t) .segbuf a)
    (frame' := fun _ => True) (fun _ ha => readByte_stored_congr n pay ha) (fun _ h => h)
    (fun a h1 h2 => readByte_stored_slot n hlen h1 h2) fun _ _ _ _ _ _ => trivial
  exact hseg.segbuf n rfl a ha

theorem Agree.frame_moved {o : BitVec 3} (h : Agree s t) (hlen : pay.length = 160)
    (hseq : n.toNat ≤ 59 ∧ n.toNat = nextPn s.fa.lastPn) (hord : ordinalAfter n pay s.fa.segOrd = .ok o) {a : Nat}
    (ha : (n = 59 ∧ 0 < o.toNat ∧ (o.toNat - 1) * 9600 ≤ a ∧ a < (o.toNat - 1) * 9600 + 9600) ∨
      readByte s .framebuf a = readByte t .framebuf a) :
    readByte (moved n pay o s) .framebuf a = readByte (moved n pay o t) .framebuf a :=
  readByte_passCopied_congr (s := { Laws.stored n pay s with fa.segOrd := o })
    (t := { Laws.stored n pay t with fa.segOrd := o }) rfl
    (fun h59 b hb => h.segbuf_moved hlen hseq hord (by rw [h59]; exact hb)) ha

theorem Agree.moved {o : BitVec 3} (h : Agree s t) (hlen : pay.length = 160)
    (hseq : n.toNat ≤ 59 ∧ n.toNat = nextPn s.fa.lastPn) (hord : ordinalAfter n pay s.fa.segOrd = .ok o) :
    Agree (Laws.moved n pay o s) (Laws.moved n pay o t) := by
  obtain ⟨ho, -, ho20⟩ := ordinalAfter_advance hord
  refine ⟨rfl, (moved_segOrd n pay o t).trans (moved_segOrd n pay o s).symm, ?_, nofun, ?_⟩
  · rw [moved_segOrd]
    exact ordinalAfter_le h.segOrd_le hord
  · rw [moved_segOrd]
    refine h.covered.advance h.segOrd_none hseq.1 hseq.2 ho ho20 (fun a ha => ?_) (fun a ha => ?_) (fun a h1 h2 => ?_)
      fun h59 h1 _ a hlo hhi => ?_
    · rw [readByte_segbuf_moved, readByte_segbuf_moved]
      exact readByte_stored_congr n pay ha
    · exact h.frame_moved hlen hseq hord (.inr ha)
    · rw [readByte_segbuf_moved, readByte_segbuf_moved]
      exact readByte_stored_slot n hlen h1 h2
    · have ho' : o = s.fa.segOrd := ho (by omega)
      refine h.frame_moved hlen hseq hord (.inl ⟨(toNat_eq_iff n 59 (by decide)).mpr h59, ?_, ?_, ?_⟩)
      all_goals rw [ho']; omega

/-- A settled FRAMEBUF stays settled: no ordinal follows 4, and the region of segment 4 is copied from a SEGBUF that
agrees. -/
theorem Settled.moved {o : BitVec 3} (hset : Settled s t) (h : Agree s t) (hlen : pay.length = 160)
    (hseq : n.toNat ≤ 59 ∧ n.toNat = nextPn s.fa.lastPn) (hord : ordinalAfter n pay s.fa.segOrd = .ok o) :
    Settled (Laws.moved n pay o s) (Laws.moved n pay o t) := by
  obtain ⟨h4, hall⟩ := hset
  obtain ⟨-, hge, -⟩ := ordinalAfter_advance hord
  have hle := ordinalAfter_le h.segOrd_le hord
  refine ⟨?_, fun a ha => h.frame_moved hlen hseq hord (.inr (hall a ha))⟩
  rw [moved_segOrd]
  omega

/-- The two runs after one more packet. -/
theorem Agree.accepted (h : Agree s t) (n : BitVec 6) (hlen : pay.length = 160) :
    (Laws.accepted n pay t).1 = (Laws.accepted n pay s).1 ∧
      Agree (Laws.accepted n pay s).2 (Laws.accepted n pay t).2 ∧
      (Settled s t → Settled (Laws.accepted n pay s).2 (Laws.accepted n pay t).2) := by
  have hlast := h.lastPn
  have hso := h.segOrd
  by_cases hseq : n.toNat ≤ 59 ∧ n.toNat = nextPn s.fa.lastPn
  · have hseq' : n.toNat ≤ 59 ∧ n.toNat = nextPn t.fa.lastPn := by rwa [hlast]
    cases hord : ordinalAfter n pay s.fa.segOrd with
    | error d =>
      have hord' : ordinalAfter n pay t.fa.segOrd = .error d := by rwa [hso]
      rw [accepted_of_error hseq hord, accepted_of_error hseq' hord']
      exact ⟨rfl, h.stored n pay, fun hset => hset⟩
    | ok o =>
      have hord' : ordinalAfter n pay t.fa.segOrd = .ok o := by rwa [hso]
      rw [accepted_of_ok hseq hord, accepted_of_ok hseq' hord']
      exact ⟨rfl, h.moved hlen hseq hord, fun hset => hset.moved h hlen hseq hord⟩
  · have hseq' : ¬ (n.toNat ≤ 59 ∧ n.toNat = nextPn t.fa.lastPn) := by rwa [hlast]
    rw [accepted_of_ne hseq, accepted_of_ne hseq']
    exact ⟨rfl, h, fun hset => hset⟩

/-- At the end of segment 4 all four regions are covered. -/
theorem Agree.settled (h : Agree s t) (hl : s.fa.lastPn = some 59) (ho : s.fa.segOrd = 4) : Settled s t := by
  refine ⟨by rw [ho]; rfl, fun a ha => h.covered.framebuf a ?_⟩
  rw [hl, ho]
  exact ha

theorem Agree.putFa (h : Agree s t) (r : FaRes) : Agree (Laws.putFa r s) (Laws.putFa r t) :=
  ⟨h.lastPn, h.segOrd, h.segOrd_le, h.segOrd_none, h.covered⟩

/-- Two runs over the same packets have the same results; once they are settled, or a `Complete` has been answered, they
are settled at the end. -/
theorem Agree.acceptAll {ps : List (BitVec 6 × List Byte)} (h : Agree s t) (hlen : ∀ p ∈ ps, p.2.length = 160) :
    ∃ u v rs, Safety.acceptAll ps s = some (u, rs) ∧ Safety.acceptAll ps t = some (v, rs) ∧
      (Settled s t ∨ .complete ∈ rs → Settled u v) := by
  induction ps generalizing s t with
  | nil => exact ⟨s, t, [], rfl, rfl, fun hset => hset.resolve_right (List.not_mem_nil)⟩
  | cons p ps ih =>
    obtain ⟨n, pay⟩ := p
    have hpay : pay.length = 160 := hlen _ List.mem_cons_self
    have hle : t.fa.segOrd.toNat ≤ 4 := h.segOrd ▸ h.segOrd_le
    obtain ⟨hres, hagree, hset⟩ := h.accepted n hpay
    have hput : Agree (acceptedPut n pay s) (acceptedPut n pay t) := by
      rw [acceptedPut, acceptedPut, hres]
      exact hagree.putFa _
    obtain ⟨u, v, rs, hu, hv, hend⟩ := ih hput fun q hq => hlen q (List.mem_cons_of_mem _ hq)
    refine ⟨u, v, _, acceptAll_cons hpay h.segOrd_le hu, hres ▸ acceptAll_cons hpay hle hv, fun hor => hend ?_⟩
    obtain hs | hmem := hor
    · exact .inl (hset hs)
    · obtain hc | hmem := List.mem_cons.mp hmem
      · obtain ⟨hl, ho⟩ := accepted_complete hc.symm
        exact .inl (hagree.settled hl ho)
      · exact .inr hmem

end

/-- Settles O48: two runs from reset positions agree; and `FaInv` covers all of FRAMEBUF at `Complete`. -/
theorem completeLeavesNoStaleByte : Obligations.CompleteLeavesNoStaleByte := by
  unfold Obligations.CompleteLeavesNoStaleByte
  refine ⟨fun s t ps hs hso ht hto hlen => ?_, fun s hfa => ?_, fun s t n pay hinv hlen hexec hdone a ha => ?_⟩
  · obtain ⟨u, v, rs, hu, hv, hend⟩ := (agree_of_reset hs hso ht hto).acceptAll hlen
    refine ⟨u, v, rs, hu, hv, fun hc => ?_⟩
    obtain ⟨-, hall⟩ := hend (.inr hc)
    exact hall
  · exact faInv_of_reset (by rw [hfa]; rfl) (by rw [hfa]; rfl)
  · rw [exec_acceptedPut hlen hinv.segOrd_le] at hexec
    cases hexec
    obtain ⟨hl, ho⟩ := accepted_complete (Option.some.inj hdone)
    have hstep : AcceptStep n pay s (.ok ((accepted n pay s).1, (accepted n pay s).2)) :=
      acceptCore_eq n pay s hlen (fun _ => hinv.segOrd_le) ▸ acceptCore_cases n pay s
    have hafter : FaInv (accepted n pay s).2 := FaInv.accept hinv hlen hstep
    have hall := hafter.frame_written a
    rw [wholeRegions_eq, hl, ho] at hall
    exact hall ha

end Sys2Proof.Laws
end

section
/-!
PROOF. O49: a whole frame in order. After `k` packets the slots of the running pass stand in SEGBUF and those of the passes
before it in FRAMEBUF (R173, R174).
-/

namespace Sys2Proof.Laws

open Sys2Proof.Machine Sys2Proof.Safety

/-- The first `k` packets of a frame have been received in order. -/
structure Received (pays : Nat → List Byte) (k : Nat) (s : State) : Prop where
  next : nextPn s.fa.lastPn = k % 60
  ord : s.fa.segOrd.toNat = (k + 39) / 60
  seg : ∀ j, j < k % 60 → HoldsBytes .segbuf (j * 160) (pays (60 * (k / 60) + j)) s
  frame : ∀ i, i < 60 * (k / 60) → HoldsBytes .framebuf (i * 160) (pays i) s

/-- What a sender puts into a frame: payloads of 160 bytes, with the ordinals 1 to 4 in packets 20 (R120). -/
structure FramePays (pays : Nat → List Byte) : Prop where
  len : ∀ k, k < 240 → (pays k).length = 160
  ord : ∀ o, o < 4 → (byteAt (pays (60 * o + 20)) 0).toNat / 16 = o + 1

/-- The number of packet `k` of a frame. -/
def frameNumber (k : Nat) : BitVec 6 := BitVec.ofNat 6 (k % 60)

section
variable {pays : Nat → List Byte} {k : Nat} {s : State}

theorem frameNumber_toNat (k : Nat) : (frameNumber k).toNat = k % 60 := by
  rw [frameNumber, BitVec.toNat_ofNat]
  omega

theorem frameNumber_eq_iff (k m : Nat) (hm : m < 64) : frameNumber k = BitVec.ofNat 6 m ↔ k % 60 = m := by
  rw [toNat_eq_iff _ m hm, frameNumber_toNat]

theorem received_zero (hl : s.fa.lastPn = none) (ho : s.fa.segOrd = 0) : Received pays 0 s :=
  ⟨by rw [hl]; rfl, by rw [ho]; rfl, fun j hj => absurd hj (Nat.not_lt_zero j), fun i hi => absurd hi (Nat.not_lt_zero i)⟩

theorem Received.inSequence (h : Received pays k s) :
    (frameNumber k).toNat ≤ 59 ∧ (frameNumber k).toNat = nextPn s.fa.lastPn := by
  rw [frameNumber_toNat, h.next]
  omega

/-- Packet 20 of a pass carries the next ordinal; no other packet moves it. -/
theorem Received.ordinal (h : Received pays k s) (hp : FramePays pays) (hk : k < 240) :
    ∃ o, ordinalAfter (frameNumber k) (pays k) s.fa.segOrd = .ok o ∧ o.toNat = (k + 40) / 60 := by
  have hso := h.ord
  by_cases h20 : k % 60 = 20
  · have hpay := hp.ord (k / 60) (by omega)
    rw [show 60 * (k / 60) + 20 = k by omega, ← payOrd_toNat] at hpay
    have hord : ordinalAfter (frameNumber k) (pays k) s.fa.segOrd = ordinalStep (payOrd (pays k)) s.fa.segOrd :=
      if_pos ((frameNumber_eq_iff k 20 (by decide)).mpr h20)
    refine ⟨(payOrd (pays k)).setWidth 3, hord.trans (ordinalStep_next (by omega) (by omega) (by omega)), ?_⟩
    rw [ordinal_toNat _ (by omega)]
    omega
  · refine ⟨s.fa.segOrd, ordinalAfter_of_ne (fun e => h20 ((frameNumber_eq_iff k 20 (by decide)).mp e)) _, ?_⟩
    omega

/-- The slots of the running pass with the new payload stored. -/
theorem Received.slots (h : Received pays k s) (hp : FramePays pays) (hk : k < 240) {j : Nat} (hj : j ≤ k % 60) :
    HoldsBytes .segbuf (j * 160) (pays (60 * (k / 60) + j)) (stored (frameNumber k) (pays k) s) := by
  obtain hlt | rfl := Nat.lt_or_eq_of_le hj
  · intro b hb
    have hlen := hp.len (60 * (k / 60) + j) (by omega)
    rw [stored_sameBytesBut _ s (hp.len k hk) _ (by rw [frameNumber_toNat]; omega)]
    exact h.seg j hlt b hb
  · have hstored := stored_holds (frameNumber k) (pays k) s
    rw [frameNumber_toNat] at hstored
    rwa [Nat.div_add_mod k 60]

/-- A packet inside a pass leaves FRAMEBUF as it is. -/
theorem Received.frame_inside (h : Received pays k s) (h59 : k % 60 ≠ 59) (o : BitVec 3) {i : Nat}
    (hi : i < 60 * ((k + 1) / 60)) : HoldsBytes .framebuf (i * 160) (pays i) (moved (frameNumber k) (pays k) o s) := by
  intro b hb
  have hkeep : passCopied (frameNumber k) { stored (frameNumber k) (pays k) s with fa.segOrd := o } = _ :=
    passCopied_of_ne (fun e => h59 ((frameNumber_eq_iff k 59 (by decide)).mp e)) _
  rw [moved, hkeep]
  exact h.frame i (by omega) b hb

/-- The last packet of a pass copies its slots to the region of its segment. -/
theorem Received.frame_last (h : Received pays k s) (hp : FramePays pays) (hk : k < 240) (h59 : k % 60 = 59)
    {o : BitVec 3} (ho : o.toNat = (k + 40) / 60) {i : Nat} (hi : i < 60 * ((k + 1) / 60)) :
    HoldsBytes .framebuf (i * 160) (pays i) (moved (frameNumber k) (pays k) o s) := by
  intro b hb
  have hlen := hp.len i (by omega)
  have hn : frameNumber k = 59 := (frameNumber_eq_iff k 59 (by decide)).mpr h59
  have hread (a : Nat) : readByte (moved (frameNumber k) (pays k) o s) .framebuf a =
      readByte (passCopied 59 { stored (frameNumber k) (pays k) s with fa.segOrd := o }) .framebuf a := by
    rw [moved, hn]
    rfl
  rw [hread]
  by_cases hbefore : i < 60 * (k / 60)
  · rw [readByte_passCopied_outside ho (by omega)]
    exact h.frame i hbefore b hb
  · obtain ⟨j, rfl⟩ : ∃ j, i = 60 * (k / 60) + j := ⟨i - 60 * (k / 60), by omega⟩
    rw [show (60 * (k / 60) + j) * 160 + b = ((k + 40) / 60 - 1) * 9600 + (j * 160 + b) by omega,
      readByte_passCopied_inside ho (by omega) (by omega)]
    exact h.slots hp hk (j := j) (by omega) b hb

/-- One more packet of the frame. -/
theorem Received.succ (h : Received pays k s) (hp : FramePays pays) (hk : k < 240) {o : BitVec 3}
    (ho : o.toNat = (k + 40) / 60) : Received pays (k + 1) (moved (frameNumber k) (pays k) o s) := by
  refine ⟨?_, by rw [moved_segOrd]; exact ho, fun j hj => ?_, fun i hi => ?_⟩
  · change nextPn (some (frameNumber k)) = _
    by_cases h59 : k % 60 = 59
    · rw [(frameNumber_eq_iff k 59 (by decide)).mpr h59]
      change 0 = _
      omega
    · refine (if_neg fun e => h59 ((frameNumber_eq_iff k 59 (by decide)).mp e)).trans ?_
      rw [frameNumber_toNat]
      omega
  · intro b hb
    rw [show (k + 1) / 60 = k / 60 by omega] at hb ⊢
    rw [readByte_segbuf_moved]
    exact h.slots hp hk (by omega) b hb
  · by_cases h59 : k % 60 = 59
    · exact h.frame_last hp hk h59 ho hi
    · exact h.frame_inside h59 o hi

/-- FA's result for packet `k` of a frame: only the last one completes it. -/
def frameResult (k : Nat) : FaRes := if k = 239 then .complete else .incomplete

theorem acceptResult_frame {o : BitVec 3} (ho : o.toNat = (k + 40) / 60) :
    acceptResult (frameNumber k) o = frameResult k := by
  have hiff : frameNumber k = 59 ∧ o = 4 ↔ k = 239 := by
    refine ((frameNumber_eq_iff k 59 (by decide)).and (toNat_eq_iff o 4 (by decide))).trans ?_
    omega
  exact if_congr hiff rfl rfl

theorem Received.accepted (h : Received pays k s) (hp : FramePays pays) (hk : k < 240) :
    (Laws.accepted (frameNumber k) (pays k) s).1 = frameResult k ∧
      (acceptedPut (frameNumber k) (pays k) s).fa.lastPn = some (frameNumber k) ∧
      Received pays (k + 1) (acceptedPut (frameNumber k) (pays k) s) := by
  obtain ⟨o, hord, ho⟩ := h.ordinal hp hk
  have hmoved : Laws.accepted (frameNumber k) (pays k) s =
      (acceptResult (frameNumber k) o, moved (frameNumber k) (pays k) o s) := accepted_of_ok h.inSequence hord
  have hsucc := h.succ hp hk ho
  rw [acceptedPut, hmoved]
  exact ⟨acceptResult_frame ho, rfl, hsucc.next, hsucc.ord, hsucc.seg, hsucc.frame⟩

/-- The packet of frame slot `k`. -/
def framePacket (pays : Nat → List Byte) (k : Nat) : BitVec 6 × List Byte := (frameNumber k, pays k)

theorem Received.acceptAll_one (h : Received pays k s) (hp : FramePays pays) (hk : k < 240) :
    acceptAll [framePacket pays k] s = some (acceptedPut (frameNumber k) (pays k) s, [frameResult k]) := by
  obtain ⟨hres, -⟩ := h.accepted hp hk
  have hle : s.fa.segOrd.toNat ≤ 4 := by
    rw [h.ord]
    omega
  have hone := acceptAll_cons (n := frameNumber k) (rest := []) (hp.len k hk) hle rfl
  rwa [hres] at hone

/-- The first packets of a frame, in order. -/
theorem received_upTo (hp : FramePays pays) (hl : s.fa.lastPn = none) (ho : s.fa.segOrd = 0) (hk : k ≤ 239) :
    ∃ t, acceptAll ((List.range k).map (framePacket pays)) s = some (t, List.replicate k .incomplete) ∧
      Received pays k t := by
  induction k with
  | zero => exact ⟨s, rfl, received_zero hl ho⟩
  | succ k ih =>
    obtain ⟨t, hrun, ht⟩ := ih (by omega)
    obtain ⟨-, -, hnext⟩ := ht.accepted hp (by omega)
    have hone := ht.acceptAll_one hp (by omega)
    have hres : frameResult k = .incomplete := if_neg (by omega)
    rw [hres] at hone
    refine ⟨_, ?_, hnext⟩
    rw [List.range_succ, List.map_append, List.replicate_succ']
    exact acceptAll_append hrun hone

end

/-- Settles O49: 239 packets by induction, the last one, and the image by the law of FA.WRITE_IMAGE. -/
theorem wholeFrameIsReassembled : Obligations.WholeFrameIsReassembled := by
  unfold Obligations.WholeFrameIsReassembled
  intro s pays hl ho hlen hord
  have hp : FramePays pays := ⟨hlen, hord⟩
  obtain ⟨t, hrun, ht⟩ := received_upTo (k := 239) hp hl ho le_rfl
  obtain ⟨-, hlast, hall⟩ := ht.accepted hp (by decide)
  have hone := ht.acceptAll_one hp (by decide)
  have hseg := hall.ord
  obtain ⟨u, hexec, hpixel, -⟩ := writeImageMapsEverySlot (acceptedPut (frameNumber 239) (pays 239) t)
  refine ⟨_, acceptAll_append hrun hone, hlast, (toNat_eq_iff _ 4 (by decide)).mpr hseg, fun k hk => hall.frame k hk,
    u, hexec, fun k j hk hj => ?_⟩
  have hbytes := hall.frame k hk
  have hpay := hlen k hk
  refine (hpixel k j hk hj).trans ?_
  rw [hbytes (2 * j) (by omega), Nat.add_assoc, hbytes (2 * j + 1) (by omega)]
  rfl

end Sys2Proof.Laws
end
